-- ==== Sys2Proof/Word.lean ====
section
/-! DEFINITION. The word types of the block: bytes, nibbles and texts of character codes (00_scope.md R7). -/

namespace Sys2Proof

/-- An 8-bit byte of a row; bit 7 has weight 128 (00_scope.md R7). -/
abbrev Byte := BitVec 8

/-- A 4-bit value: a button code or one hexadecimal digit's value. -/
abbrev Nibble := BitVec 4

/-- A text of exactly `n` characters, each its 8-bit code, first character first (10_state.md R26). -/
abbrev Text (n : Nat) := Vector Byte n

end Sys2Proof
end

