-- ==== Sys2Proof/Config.lean ====
section
/-! DEFINITION. What is fixed before the block runs: the source's constants, the open parameters of 00_scope.md R6
(10_state.md R24: elaboration-time, never changed while the block runs) and the constant profile table of R27. -/

namespace Sys2Proof

/-- Required number of rows (00_scope.md R6, NROWS_REQ). -/
def Config.nrowsReq : Nat := 2

/-- Required bit count of row 0 (R6, LEN0_REQ). -/
def Config.len0Req : Nat := 12

/-- Required bit count of row 1 (R6, LEN1_REQ). -/
def Config.len1Req : Nat := 66

/-- The noise byte of the sanity test (R6, SANITY_BYTE). -/
def Config.sanityByte : Byte := 0xFF#8

/-- MODEL_STRING (R6, 45_record_builder.md R185): an OPEN parameter with no default in the source, the same for every
record. It has no body, so a claim holds for every value of it (log 8). -/
opaque Config.modelString : String

/-- DIAG_EN (R6, 60_exceptions.md R209): an OPEN parameter; whether diagnostic requests are raised (log 8). -/
opaque Config.diagEn : Bool

/-- LEN_W (R6, decision D3): the width of the two row-length ports, OPEN, at least 7 (log 9). -/
opaque Config.lenW : { w : Nat // 7 ≤ w } := ⟨16, by decide⟩

/-- NROWS_W (R6, decision D3): the width of the row-count port, OPEN, at least 2 (log 9). -/
opaque Config.nrowsW : { w : Nat // 2 ≤ w } := ⟨8, by decide⟩

/-- One row of the modulation profile table (10_state.md R27); times in microseconds. The source gives no tolerance
("unset") for any profile, and a discriminator midpoint for the first only (log 12). -/
structure ModulationProfile where
  name         : String
  shortPulse   : Nat
  longPulse    : Nat
  gapLimit     : Nat
  resetLimit   : Nat
  tolerance    : Option Nat
  midpoint     : Option Nat
  deriving DecidableEq, Repr

/-- PROFILE[0..2] (10_state.md R27): declared by the block "as data, not logic"; no rule reads it. -/
def Config.profile : Vector ModulationProfile 3 := #v[
  { name := "Standard (OOK)", shortPulse := 393, longPulse := 787, gapLimit := 1500, resetLimit := 9000,
    tolerance := none, midpoint := some 590 },
  { name := "Standard (FSK)", shortPulse := 393, longPulse := 787, gapLimit := 1500, resetLimit := 9000,
    tolerance := none, midpoint := none },
  { name := "Fast variant (2× baud, OOK)", shortPulse := 197, longPulse := 393, gapLimit := 750, resetLimit := 4500,
    tolerance := none, midpoint := none }]

end Sys2Proof
end

