-- ==== Sys2Proof/Syntax.lean ====
section
/-! DEFINITION. The syntax: the presented frame, the classifications, the output record, and `Instr`, one constructor per
row of opcode_table.json (30_encoding.md R85, R86, R99). -/

namespace Sys2Proof

/-- One presentation: the frame of 30_encoding.md R80 on the ports of 10_state.md R25. The row count and the two lengths
are natural numbers (decision D3, log 9); `row0[15:8]` is byte 0 of row 0, `row1[71:64]` byte 0 of row 1. -/
structure Presentation where
  nrows : Nat
  len0  : Nat
  len1  : Nat
  row0  : BitVec 16
  row1  : BitVec 72
  deriving DecidableEq, Repr

/-- The four outcomes of DECODE (60_exceptions.md R200, R201). -/
inductive Classification
  | ok
  | lengthMismatch
  | preambleMismatch
  | sanityFail
  deriving DecidableEq, Repr

/-- The variable fields of an OutputRecord (30_encoding.md R95). The first field of the spec's record, `model`, is the
constant MODEL_STRING (R185) and is added by `Machine.recordPairs`, which gives the ordered list of all seven. `rpt` is the
spec's `repeat`. -/
structure Record where
  id        : Text 7
  batteryOk : Bool
  button    : Nibble
  learn     : Bool
  rpt       : Bool
  encrypted : Text 8
  deriving DecidableEq, Repr

/-- The instructions: the four frame classes of DECODE and the 18 named sub-operations (30_encoding.md R99). A frame class
carries what its row of the table lets the block read: the shape for LENGTH_MISMATCH, row 0 for PREAMBLE_MISMATCH, the
bytes outside the fixed pattern for SANITY_FAIL, the nine data bytes for OK. A sub-operation carries the operands of its
rule's pseudocode. -/
inductive Instr
  | decodeLengthMismatch (nrows len0 len1 : Nat)
  | decodePreambleMismatch (h0 h1 : Byte)
  | decodeSanityFail (d0 d8 : Byte)
  | decodeOk (d0 d1 d2 d3 d4 d5 d6 d7 d8 : Byte)
  | lenchk (nrows len0 len1 : Nat)
  | prechk (h0 h1 : Byte)
  | sanchk (d1 d2 d3 d4 d5 d6 d7 : Byte)
  | rev8 (b : Byte)
  | xenc (d0 d1 d2 d3 : Byte)
  | xser (d4 d5 d6 d7 : Byte)
  | xbtn (d7 : Byte)
  | xlearn (buttonRaw : Nibble)
  | xbatt (d8 : Byte)
  | xrpt (d8 : Byte)
  | btnperm (buttonRaw : Nibble)
  | hexdig (n : Nibble)
  | fmtid (serial : BitVec 32)
  | fmtenc (encrypted : BitVec 32)
  | batok (batteryLow : Bool)
  | mkrec (idText : Text 7) (batteryOk : Bool) (button : Nibble) (learn rpt : Bool) (encText : Text 8)
  | emit (rec : Record)
  | diag (status : Classification)
  deriving DecidableEq, Repr

end Sys2Proof
end

