-- ==== Sys2Proof/WellFormed.lean ====
section
/-! DEFINITION. Which instructions are well formed: the class conditions of 30_encoding.md R85. A sub-operation is well
formed on every operand. Beside it, the alphabet of the record texts (45_record_builder.md R180). -/

namespace Sys2Proof

/-- A character of the alphabet `0123456789ABCDEF`, by its code (45_record_builder.md R180). -/
def isHexChar (c : Byte) : Bool :=
  (0x30 ≤ c.toNat && c.toNat ≤ 0x39) || (0x41 ≤ c.toNat && c.toNat ≤ 0x46)

/-- Every character of the text is an uppercase hexadecimal digit. -/
def isHexText {n : Nat} (t : Text n) : Bool := t.toList.all isHexChar

/-- Both texts of a record are hexadecimal (95_test_vectors.md L8). -/
def Record.isHex (r : Record) : Bool := isHexText r.id && isHexText r.encrypted

/-- The row count and the two lengths are the required ones (30_encoding.md R80). -/
def rightShape (nrows len0 len1 : Nat) : Bool :=
  nrows == Config.nrowsReq && len0 == Config.len0Req && len1 == Config.len1Req

/-- Well-formed instructions. -/
def Instr.wellFormed : Instr → Bool
  | .decodeLengthMismatch nrows len0 len1 => !rightShape nrows len0 len1
  | .decodePreambleMismatch h0 h1 => !(h0 == 0xFF#8 && h1 &&& 0xF0#8 == 0xF0#8)
  | .decodeSanityFail _ _ => true
  | .decodeOk _ d1 d2 d3 d4 d5 d6 d7 _ => !([d1, d2, d3, d4, d5, d6, d7].all (· == Config.sanityByte))
  | .lenchk _ _ _ => true
  | .prechk _ _ => true
  | .sanchk _ _ _ _ _ _ _ => true
  | .rev8 _ => true
  | .xenc _ _ _ _ => true
  | .xser _ _ _ _ => true
  | .xbtn _ => true
  | .xlearn _ => true
  | .xbatt _ => true
  | .xrpt _ => true
  | .btnperm _ => true
  | .hexdig _ => true
  | .fmtid _ => true
  | .fmtenc _ => true
  | .batok _ => true
  | .mkrec _ _ _ _ _ _ => true
  | .emit _ => true
  | .diag _ => true

end Sys2Proof
end

