-- ==== Sys2Proof/Decode.lean ====
section
/-! DEFINITION. Decoding: the read primitives `byte` and `rowbit` (20_memory.md R51, R52), the 78-bit patterns and their
priority (30_encoding.md R85, R86), the decoder (total), the encoder, and the opcode table's words. -/

namespace Sys2Proof

/-! ### Reading the presented buffer -/

/-- `byte(0, i)` (20_memory.md R51): `in_row0[15-8i : 8-8i]`. -/
def Presentation.byte0 (p : Presentation) (i : Fin 2) : Byte := p.row0.extractLsb' (8 - 8 * i.val) 8

/-- `byte(1, i)` (20_memory.md R51): `in_row1[71-8i : 64-8i]`. -/
def Presentation.byte1 (p : Presentation) (i : Fin 9) : Byte := p.row1.extractLsb' (64 - 8 * i.val) 8

/-- `rowbit(0, n)` (20_memory.md R52): bit `7 - n mod 8` of byte `n div 8`. -/
def Presentation.rowbit0 (p : Presentation) (n : Fin 12) : Bool :=
  (p.byte0 ⟨n.val / 8, by omega⟩).getLsbD (7 - n.val % 8)

/-- `rowbit(1, n)` (20_memory.md R52). -/
def Presentation.rowbit1 (p : Presentation) (n : Fin 66) : Bool :=
  (p.byte1 ⟨n.val / 8, by omega⟩).getLsbD (7 - n.val % 8)

/-- The frame literal `F(n; l0, l1; h0 h1 | d0 .. d8)` (30_encoding.md R97). -/
def frameLiteral (n l0 l1 : Nat) (h0 h1 d0 d1 d2 d3 d4 d5 d6 d7 d8 : Byte) : Presentation :=
  { nrows := n, len0 := l0, len1 := l1, row0 := h0 ++ h1,
    row1 := d0 ++ d1 ++ d2 ++ d3 ++ d4 ++ d5 ++ d6 ++ d7 ++ d8 }

/-- The short form `F(h0 h1 | d0 .. d8)` (30_encoding.md R97): two rows of 12 and 66 bits. -/
def frame (h0 h1 d0 d1 d2 d3 d4 d5 d6 d7 d8 : Byte) : Presentation :=
  frameLiteral 2 12 66 h0 h1 d0 d1 d2 d3 d4 d5 d6 d7 d8

/-- The values fit on ports of the widths NROWS_W and LEN_W (10_state.md R25, decision D3). -/
def Presentation.fitsPorts (p : Presentation) : Bool :=
  p.nrows < 2 ^ Config.nrowsW.val && p.len0 < 2 ^ Config.lenW.val && p.len1 < 2 ^ Config.lenW.val

/-! ### Frame classes -/

/-- The content of a frame of the right shape as one 78-bit number whose bit 77 is the first bit to arrive
(30_encoding.md R86): the twelve bits of row 0, then the 66 of row 1; the ten padding bits (20_memory.md R56) are not
part of it. -/
def Presentation.frameNumber (p : Presentation) : BitVec 78 := p.row0.extractLsb' 4 12 ++ p.row1.extractLsb' 6 66

/-- The frame of right shape with the given 78-bit content and zero padding. -/
def frameOfNumber (w : BitVec 78) : Presentation :=
  { nrows := Config.nrowsReq, len0 := Config.len0Req, len1 := Config.len1Req,
    row0 := w.extractLsb' 66 12 ++ 0#4, row1 := w.extractLsb' 0 66 ++ 0#6 }

/-- A pattern of opcode_table.json: a frame matches when `(frame & mask) == want`, `want` being the row's `match`
(30_encoding.md R86). -/
structure Pattern where
  mask : BitVec 78
  want : BitVec 78
  deriving DecidableEq, Repr

/-- `(frame & mask) == match` (30_encoding.md R86). -/
def Pattern.holds (t : Pattern) (f : BitVec 78) : Bool := f &&& t.mask == t.want

/-- The row `DECODE.OK` of opcode_table.json: row 0 is twelve 1-bits. -/
def okPattern : Pattern := { mask := 0x3FFC0000000000000000#78, want := 0x3FFC0000000000000000#78 }

/-- The row `DECODE.SANITY_FAIL` of opcode_table.json: also the bits of bytes 1 to 7 of row 1 are 1. -/
def sanityFailPattern : Pattern := { mask := 0x3FFC03FFFFFFFFFFFFFC#78, want := 0x3FFC03FFFFFFFFFFFFFC#78 }

/-- The class of a frame: the rows applied in the priority order of 30_encoding.md R85. The lengths come first and read
no content (20_memory.md R55); PREAMBLE_MISMATCH is "anything but" the twelve 1-bits. -/
def classify (p : Presentation) : Classification :=
  if rightShape p.nrows p.len0 p.len1 = false then .lengthMismatch
  else if okPattern.holds p.frameNumber = false then .preambleMismatch
  else if sanityFailPattern.holds p.frameNumber then .sanityFail
  else .ok

/-- The instruction a presented frame is: its class with the operands that class reads. Total: "No frame is illegal"
(30_encoding.md R87). -/
def decodeFrame (p : Presentation) : Instr :=
  match classify p with
  | .lengthMismatch => .decodeLengthMismatch p.nrows p.len0 p.len1
  | .preambleMismatch => .decodePreambleMismatch (p.byte0 0) (p.byte0 1)
  | .sanityFail => .decodeSanityFail (p.byte1 0) (p.byte1 8)
  | .ok => .decodeOk (p.byte1 0) (p.byte1 1) (p.byte1 2) (p.byte1 3) (p.byte1 4) (p.byte1 5) (p.byte1 6) (p.byte1 7)
      (p.byte1 8)

/-! ### Codes -/

/-- The 2-bit code of a classification (60_exceptions.md R201, decision D5). -/
def Classification.code : Classification → BitVec 2
  | .ok => 0#2
  | .lengthMismatch => 1#2
  | .preambleMismatch => 2#2
  | .sanityFail => 3#2

/-- The classification with a code (60_exceptions.md R201): "all four 2-bit values are used". -/
def classificationOfCode (c : BitVec 2) : Classification :=
  if c = 0#2 then .ok else if c = 1#2 then .lengthMismatch else if c = 2#2 then .preambleMismatch else .sanityFail

/-! ### Invocations: what the decoder reads -/

/-- The operations whose operand is a presented frame (opcode_table.json formats frame-class, frame-test, frame-field). -/
inductive FrameOp
  | decode | lenchk | prechk | sanchk | xenc | xser | xbtn | xbatt | xrpt
  deriving DecidableEq, Repr

/-- The operations whose operand is a value of bits, most significant first (format value-function). -/
inductive ValueOp
  | rev8 | xlearn | btnperm | hexdig | fmtid | fmtenc | batok | diag
  deriving DecidableEq, Repr

/-- The operations that "take no bit operand" (30_encoding.md R86); their operand is a record's fields (log 2). -/
inductive RecordOp
  | mkrec | emit
  deriving DecidableEq, Repr

/-- Number of operand bits of a value operation: the length of its encoding string in opcode_table.json. -/
def ValueOp.width : ValueOp → Nat
  | .rev8 => 8
  | .xlearn => 4
  | .btnperm => 4
  | .hexdig => 4
  | .fmtid => 32
  | .fmtenc => 32
  | .batok => 1
  | .diag => 2

/-- One invocation of a named operation (30_encoding.md R99) on an operand. The hardware's own is `frame .decode p`; the
others let each part of DECODE be run alone (log 2). A value operand has exactly the bits of its row. -/
inductive Invocation
  | frame (op : FrameOp) (p : Presentation)
  | value (op : ValueOp) (w : BitVec op.width)
  | record (op : RecordOp) (r : Record)
  deriving DecidableEq, Repr

/-- The instruction of a frame operation on the presented frame: each reads the bytes its rule names. -/
def decodeFrameOp : FrameOp → Presentation → Instr
  | .decode, p => decodeFrame p
  | .lenchk, p => .lenchk p.nrows p.len0 p.len1
  | .prechk, p => .prechk (p.byte0 0) (p.byte0 1)
  | .sanchk, p => .sanchk (p.byte1 1) (p.byte1 2) (p.byte1 3) (p.byte1 4) (p.byte1 5) (p.byte1 6) (p.byte1 7)
  | .xenc, p => .xenc (p.byte1 0) (p.byte1 1) (p.byte1 2) (p.byte1 3)
  | .xser, p => .xser (p.byte1 4) (p.byte1 5) (p.byte1 6) (p.byte1 7)
  | .xbtn, p => .xbtn (p.byte1 7)
  | .xbatt, p => .xbatt (p.byte1 8)
  | .xrpt, p => .xrpt (p.byte1 8)

/-- The instruction of a value operation on its operand, whatever the operand's bits. -/
def decodeValueOp : (op : ValueOp) → BitVec op.width → Instr
  | .rev8, b => .rev8 b
  | .xlearn, n => .xlearn n
  | .btnperm, n => .btnperm n
  | .hexdig, n => .hexdig n
  | .fmtid, serial => .fmtid serial
  | .fmtenc, encrypted => .fmtenc encrypted
  | .batok, b => .batok (b.getLsbD 0)
  | .diag, c => .diag (classificationOfCode c)

/-- The instruction of a record operation. -/
def decodeRecordOp : RecordOp → Record → Instr
  | .mkrec, r => .mkrec r.id r.batteryOk r.button r.learn r.rpt r.encrypted
  | .emit, r => .emit r

/-- The decoder: total, and nothing is rejected, since every frame has a class (30_encoding.md R87) and every operand of an
operation's width has the result its rule gives (log 2). Words that are no row's are rejected by `tableInvocation`. -/
def decode : Invocation → Instr
  | .frame op p => decodeFrameOp op p
  | .value op w => decodeValueOp op w
  | .record op r => decodeRecordOp op r

/-! ### The encoder -/

/-- A frame of right shape and preamble with the given data bytes (30_encoding.md R81, R82; row 0's padding zero). -/
def dataFrame (d0 d1 d2 d3 d4 d5 d6 d7 d8 : Byte) : Presentation :=
  frame 0xFF#8 0xF0#8 d0 d1 d2 d3 d4 d5 d6 d7 d8

/-- The encoder: the invocation that is the instruction. Bits the row's table entry marks `x` are written 0. -/
def encode : Instr → Invocation
  | .decodeLengthMismatch n l0 l1 => .frame .decode (frameLiteral n l0 l1 0 0 0 0 0 0 0 0 0 0 0)
  | .decodePreambleMismatch h0 h1 => .frame .decode (frame h0 h1 0 0 0 0 0 0 0 0 0)
  | .decodeSanityFail d0 d8 =>
    .frame .decode (dataFrame d0 0xFF#8 0xFF#8 0xFF#8 0xFF#8 0xFF#8 0xFF#8 0xFF#8 d8)
  | .decodeOk d0 d1 d2 d3 d4 d5 d6 d7 d8 => .frame .decode (dataFrame d0 d1 d2 d3 d4 d5 d6 d7 d8)
  | .lenchk n l0 l1 => .frame .lenchk (frameLiteral n l0 l1 0 0 0 0 0 0 0 0 0 0 0)
  | .prechk h0 h1 => .frame .prechk (frame h0 h1 0 0 0 0 0 0 0 0 0)
  | .sanchk d1 d2 d3 d4 d5 d6 d7 => .frame .sanchk (dataFrame 0 d1 d2 d3 d4 d5 d6 d7 0)
  | .rev8 b => .value .rev8 b
  | .xenc d0 d1 d2 d3 => .frame .xenc (dataFrame d0 d1 d2 d3 0 0 0 0 0)
  | .xser d4 d5 d6 d7 => .frame .xser (dataFrame 0 0 0 0 d4 d5 d6 d7 0)
  | .xbtn d7 => .frame .xbtn (dataFrame 0 0 0 0 0 0 0 d7 0)
  | .xlearn n => .value .xlearn n
  | .xbatt d8 => .frame .xbatt (dataFrame 0 0 0 0 0 0 0 0 d8)
  | .xrpt d8 => .frame .xrpt (dataFrame 0 0 0 0 0 0 0 0 d8)
  | .btnperm n => .value .btnperm n
  | .hexdig n => .value .hexdig n
  | .fmtid serial => .value .fmtid serial
  | .fmtenc encrypted => .value .fmtenc encrypted
  | .batok b => .value .batok (if b then 1#1 else 0#1)
  | .mkrec idText bok btn learn rpt encText =>
    .record .mkrec { id := idText, batteryOk := bok, button := btn, learn := learn, rpt := rpt, encrypted := encText }
  | .emit r => .record .emit r
  | .diag c => .value .diag c.code

/-! ### The opcode table's words -/

/-- The record whose every operand field is zero: the serial and payload texts of 0 and four zero fields. -/
def zeroRecord : Record :=
  { id := #v[0x30, 0x30, 0x30, 0x30, 0x30, 0x30, 0x30], batteryOk := false, button := 0, learn := false, rpt := false,
    encrypted := #v[0x30, 0x30, 0x30, 0x30, 0x30, 0x30, 0x30, 0x30] }

/-- Why a table word is no row's word. Raised by `tableInvocation` only; no event at the ports and no invocation of an
operation can raise it. Safe: nothing is run. -/
inductive DecodeError
  /-- No row of opcode_table.json has words of this many bits. Safe. -/
  | noRowOfWidth (nbits : Nat)
  /-- The word has a bit beyond the rows of its width. Safe. -/
  | bitBeyondRow (nbits : Nat)
  deriving DecidableEq, Repr

/-- The invocation a table word stands for. The table has no operation code: a word of the 78 frame bits (80 in whole
bytes) is a frame of right shape under DECODE, a shorter word is read as a value row. DESIGN CHOICE, log 11: 32 bits
are FMTID below 2^28, else FMTENC; 8 bits are the narrowest row that holds the word, one with fixed bits first (BATOK below
2, DIAG below 4, XLEARN for 15, BTNPERM below 16, else REV8); 4 bits are XLEARN for 15, else BTNPERM; 2 bits DIAG; 1 bit
BATOK; 0 bits MKREC on the zero record. Words of no row are rejected by name. -/
def tableInvocation (nbits w : Nat) : Except DecodeError Invocation :=
  if nbits = 78 ∨ nbits = 80 then
    if w < 2 ^ 78 then .ok (.frame .decode (frameOfNumber (BitVec.ofNat 78 w))) else .error (.bitBeyondRow nbits)
  else if nbits = 32 then
    if w < 2 ^ 28 then .ok (.value .fmtid (BitVec.ofNat 32 w))
    else if w < 2 ^ 32 then .ok (.value .fmtenc (BitVec.ofNat 32 w)) else .error (.bitBeyondRow nbits)
  else if nbits = 8 then
    if w < 2 then .ok (.value .batok (BitVec.ofNat 1 w))
    else if w < 4 then .ok (.value .diag (BitVec.ofNat 2 w))
    else if w = 15 then .ok (.value .xlearn (BitVec.ofNat 4 w))
    else if w < 16 then .ok (.value .btnperm (BitVec.ofNat 4 w))
    else if w < 256 then .ok (.value .rev8 (BitVec.ofNat 8 w)) else .error (.bitBeyondRow nbits)
  else if nbits = 4 then
    if w = 15 then .ok (.value .xlearn (BitVec.ofNat 4 w))
    else if w < 16 then .ok (.value .btnperm (BitVec.ofNat 4 w)) else .error (.bitBeyondRow nbits)
  else if nbits = 2 then
    if w < 4 then .ok (.value .diag (BitVec.ofNat 2 w)) else .error (.bitBeyondRow nbits)
  else if nbits = 1 then
    if w < 2 then .ok (.value .batok (BitVec.ofNat 1 w)) else .error (.bitBeyondRow nbits)
  else if nbits = 0 then
    if w = 0 then .ok (.record .mkrec zeroRecord) else .error (.bitBeyondRow nbits)
  else .error (.noRowOfWidth nbits)

/-- The instruction the decoder reads from a table word of `nbits` bits. -/
def decodeTableWord (nbits w : Nat) : Option Instr :=
  match tableInvocation nbits w with
  | .ok inv => some (decode inv)
  | .error _ => none

end Sys2Proof
end

