-- ==== Sys2Proof/Machine/State.lean ====
section
/-! DEFINITION. The state: the events still to be presented at the input ports, the transient values of one decode, the
response on the output ports, and the emission log. The block retains nothing between presentations (10_state.md R20,
R28): no field but the first is read by what a presentation does. -/

namespace Sys2Proof.Machine

/-- One value of all input ports (10_state.md R25): one event. -/
structure PortIn where
  rst     : Bool
  inValid : Bool
  frame   : Presentation
  deriving DecidableEq, Repr

/-- What the environment does next: drive the ports, or invoke one named operation alone (log 1, log 2). -/
inductive Stimulus
  | ports (e : PortIn)
  | unit (inv : Invocation)
  deriving DecidableEq, Repr

/-- The DecodedFrame of an accepted frame (10_state.md R21). -/
structure DecodedFrame where
  encrypted   : BitVec 32
  serial      : BitVec 32
  buttonRaw   : Nibble
  learn       : Bool
  batteryLow  : Bool
  rpt         : Bool
  buttonIndex : Nibble
  deriving DecidableEq, Repr

/-- The transient values (10_state.md R21): `none` is the spec's own "do not exist until a frame is accepted" (R31), not
a missing reset value (log 3). The first seven are the DecodedFrame; the others hold the results of the other
sub-operations of 30_encoding.md R99 (log 2). -/
structure Wires where
  encrypted   : Option (BitVec 32) := none
  serial      : Option (BitVec 32) := none
  buttonRaw   : Option Nibble := none
  learn       : Option Bool := none
  batteryLow  : Option Bool := none
  rpt         : Option Bool := none
  buttonIndex : Option Nibble := none
  lengthOk    : Option Bool := none
  preambleOk  : Option Bool := none
  noise       : Option Bool := none
  rev8        : Option Byte := none
  hexdig      : Option Byte := none
  idText      : Option (Text 7) := none
  encText     : Option (Text 8) := none
  batteryOk   : Option Bool := none
  record      : Option Record := none
  diag        : Option Classification := none
  deriving DecidableEq, Repr

/-- The `dec_*` taps of an accepted frame (10_state.md R26, 60_exceptions.md R210). -/
structure Taps where
  encrypted  : BitVec 32
  serial     : BitVec 32
  buttonRaw  : Nibble
  batteryLow : Bool
  deriving DecidableEq, Repr

/-- One response (40_decode_pipeline.md R115): the classification, the record of an accepted frame, its taps, and the
diagnostic request. The three outward effects are separate (R120, 60_exceptions.md R213). What carries no meaning does
not exist here (10_state.md R32; log 5). -/
structure Response where
  status : Classification
  record : Option Record
  taps   : Option Taps
  diag   : Option Classification
  deriving DecidableEq, Repr

/-- The machine's state. -/
structure State where
  /-- The events still to come at the input ports, the next first (log 1). -/
  inputs   : List Stimulus
  /-- The transient values; all absent between presentations. -/
  wires    : Wires
  /-- The response on the output ports; `none` is `out_valid = 0`. -/
  response : Option Response
  /-- The emission log, oldest first: the environment's record, read by no operation (log 4). -/
  log      : List Response
  deriving DecidableEq, Repr

/-- After reset: nothing presented, no transient value, no response (10_state.md R31), an empty log. -/
def State.reset : State := { inputs := [], wires := {}, response := none, log := [] }

/-- Faults: none. "A model needs no fault outcome beyond the three rejections, and none of the three is a fault of the
model" (60_exceptions.md R207); the type is empty, so no step can end in a fault. Safe: the spec allows no fault. -/
inductive Fault
  deriving DecidableEq, Repr

/-- Why a step is refused: nothing in this model refuses one. -/
inductive Refusal
  /-- An instruction without a meaning yet; raised by no arm of `exec`, since every one has its meaning. Safe. -/
  | notModelled (mnemonic : String)
  deriving DecidableEq, Repr

/-- What an instruction answers. -/
abbrev Result := Host.Outcome State Fault Refusal

end Sys2Proof.Machine
end

