-- ==== Sys2Proof/Machine/Operands.lean ====
section
/-! DEFINITION. The value functions of stages 3 to 5: byte reversal and byte-lane assembly (43_field_extractor.md), the
button permutation (44_button_normalizer.md), and the texts and the record (45_record_builder.md). -/

namespace Sys2Proof.Machine

/-- REV8 (43_field_extractor.md R150), in the shift-and-mask form the rule gives. -/
def rev8 (b : Byte) : Byte :=
  ((b &&& 0x01#8) <<< 7) ||| ((b &&& 0x02#8) <<< 5) ||| ((b &&& 0x04#8) <<< 3) ||| ((b &&& 0x08#8) <<< 1) |||
  ((b &&& 0x10#8) >>> 1) ||| ((b &&& 0x20#8) >>> 3) ||| ((b &&& 0x40#8) >>> 5) ||| ((b &&& 0x80#8) >>> 7)

/-- XENC (43_field_extractor.md R152): `{REV8(d3), REV8(d2), REV8(d1), REV8(d0)}`. -/
def xenc (d0 d1 d2 d3 : Byte) : BitVec 32 := rev8 d3 ++ rev8 d2 ++ rev8 d1 ++ rev8 d0

/-- XSER (43_field_extractor.md R153): `{REV8(d7 & 0xF0), REV8(d6), REV8(d5), REV8(d4)}`, the mask before the reversal. -/
def xser (d4 d5 d6 d7 : Byte) : BitVec 32 := rev8 (d7 &&& 0xF0#8) ++ rev8 d6 ++ rev8 d5 ++ rev8 d4

/-- XBTN (43_field_extractor.md R154): the low nibble of byte 7, not reversed. -/
def xbtn (d7 : Byte) : Nibble := d7.extractLsb' 0 4

/-- BTNPERM (44_button_normalizer.md R170), in the shift-and-mask form the rule gives: bits 3 and 1 stay, bits 2 and 0
change places. -/
def btnperm (n : Nibble) : Nibble :=
  (n &&& 0x8#4) ||| ((n &&& 0x1#4) <<< 2) ||| (n &&& 0x2#4) ||| ((n &&& 0x4#4) >>> 2)

/-- HEXDIG (45_record_builder.md R180, decision D10): the 8-bit character code of one uppercase hexadecimal digit. -/
def hexdig (n : Nibble) : Byte :=
  if n.toNat < 10 then 0x30#8 + n.setWidth 8 else 0x41#8 + (n.setWidth 8 - 10#8)

/-- FMTID (45_record_builder.md R181): seven digits, most significant first; bits 31:28 are not read. -/
def fmtid (serial : BitVec 32) : Text 7 :=
  #v[hexdig (serial.extractLsb' 24 4), hexdig (serial.extractLsb' 20 4), hexdig (serial.extractLsb' 16 4),
     hexdig (serial.extractLsb' 12 4), hexdig (serial.extractLsb' 8 4), hexdig (serial.extractLsb' 4 4),
     hexdig (serial.extractLsb' 0 4)]

/-- FMTENC (45_record_builder.md R182): eight digits, most significant first. -/
def fmtenc (encrypted : BitVec 32) : Text 8 :=
  #v[hexdig (encrypted.extractLsb' 28 4), hexdig (encrypted.extractLsb' 24 4), hexdig (encrypted.extractLsb' 20 4),
     hexdig (encrypted.extractLsb' 16 4), hexdig (encrypted.extractLsb' 12 4), hexdig (encrypted.extractLsb' 8 4),
     hexdig (encrypted.extractLsb' 4 4), hexdig (encrypted.extractLsb' 0 4)]

/-- MKREC (45_record_builder.md R184), less the constant `model` that `recordPairs` adds. -/
def mkrec (idText : Text 7) (batteryOk : Bool) (button : Nibble) (learn rpt : Bool) (encText : Text 8) : Record :=
  { id := idText, batteryOk := batteryOk, button := button, learn := learn, rpt := rpt, encrypted := encText }

/-- The seven keys of the output record (30_encoding.md R95). -/
inductive RecordKey
  | model | id | batteryOk | button | learn | rpt | encrypted
  deriving DecidableEq, Repr

/-- A key as the source spells it (30_encoding.md R95). -/
def keyName : RecordKey → String
  | .model => "model"
  | .id => "id"
  | .batteryOk => "battery_ok"
  | .button => "button"
  | .learn => "learn"
  | .rpt => "repeat"
  | .encrypted => "encrypted"

/-- A typed value of the output record (30_encoding.md R95): a string constant, a text of character codes, a Boolean or
an integer. -/
inductive FieldValue
  | str (s : String)
  | chars (cs : List Byte)
  | bool (b : Bool)
  | int (n : Nat)
  deriving DecidableEq, Repr

/-- The OutputRecord: the ordered list of seven pairs, `model` first with the value MODEL_STRING (30_encoding.md R95,
45_record_builder.md R184, R185). -/
def recordPairs (r : Record) : List (RecordKey × FieldValue) :=
  [(.model, .str Config.modelString), (.id, .chars r.id.toList), (.batteryOk, .bool r.batteryOk),
   (.button, .int r.button.toNat), (.learn, .bool r.learn), (.rpt, .bool r.rpt), (.encrypted, .chars r.encrypted.toList)]

end Sys2Proof.Machine
end

