-- ==== Sys2Proof/Machine/Flags.lean ====
section
/-! DEFINITION. The Boolean results: the tests of stages 1 and 2 (41_frame_shape_validator.md, 42_sanity_filter.md), the
flags of stage 3 (10_state.md R23, 43_field_extractor.md) and the condition of a diagnostic request (60_exceptions.md). -/

namespace Sys2Proof.Machine

/-- LENCHK (41_frame_shape_validator.md R130). -/
def lenchk (nrows len0 len1 : Nat) : Bool := nrows == 2 && len0 == 12 && len1 == 66

/-- PRECHK (41_frame_shape_validator.md R131): the low nibble of `h1` is padding and is masked off. -/
def prechk (h0 h1 : Byte) : Bool := h0 == 0xFF#8 && h1 &&& 0xF0#8 == 0xF0#8

/-- SANCHK (42_sanity_filter.md R140): all seven bytes equal 0xFF; true means reject. -/
def sanchk (d1 d2 d3 d4 d5 d6 d7 : Byte) : Bool :=
  d1 == 0xFF#8 && d2 == 0xFF#8 && d3 == 0xFF#8 && d4 == 0xFF#8 && d5 == 0xFF#8 && d6 == 0xFF#8 && d7 == 0xFF#8

/-- XLEARN (43_field_extractor.md R155): all four raw button bits set. -/
def xlearn (buttonRaw : Nibble) : Bool := buttonRaw == 0xF#4

/-- XBATT (43_field_extractor.md R156): bit 7 of byte 8. -/
def xbatt (d8 : Byte) : Bool := d8.getLsbD 7

/-- XRPT (43_field_extractor.md R157): bit 6 of byte 8. -/
def xrpt (d8 : Byte) : Bool := d8.getLsbD 6

/-- BATOK (45_record_builder.md R183). -/
def batok (batteryLow : Bool) : Bool := !batteryLow

/-- DIAG (60_exceptions.md R209): `DIAG_EN & (status == PREAMBLE_MISMATCH | status == SANITY_FAIL)`; the request's code is
the status. `none` is `diag_valid = 0`. -/
def diagRequest (status : Classification) : Option Classification :=
  if (status == .preambleMismatch || status == .sanityFail) && Config.diagEn then some status else none

end Sys2Proof.Machine
end

