-- ==== Sys2Proof/Machine/Ops.lean ====
section
/-! DEFINITION. The shared operations over the state: taking the next event, giving a response, raising a rejection,
emitting a record, and the port-by-port view of the outputs. -/

namespace Sys2Proof.Machine

/-! ### Taking an event -/

/-- The invocation an event asks for. A port event under `rst`, or without `in_valid`, is no presentation
(10_state.md R31, 40_decode_pipeline.md R116; decision D15). -/
def fetch : Stimulus → Option Invocation
  | .ports e => if e.rst || !e.inValid then none else some (.frame .decode e.frame)
  | .unit inv => some inv

/-- The event is taken: the buffer is "not retained after the call returns" (10_state.md R33), and the block does not hold
or repeat the last response (70_reset_and_hazards.md R234 (f)). -/
def consume (s : State) : State := { s with inputs := s.inputs.tail, response := none }

/-- An event without a presentation: no response, no transient value (10_state.md R31, R116). -/
def quiet (s : State) : State := { consume s with wires := {} }

/-- The event that makes the next step run an invocation: a frame under DECODE comes at the ports. -/
def stimulusOf : Invocation → Stimulus
  | .frame .decode p => .ports { rst := false, inValid := true, frame := p }
  | inv => .unit inv

/-! ### Responding -/

/-- One response: it stands on the output ports and in the emission log, and the transient values are "discarded"
(10_state.md R21). -/
def respond (r : Response) (s : State) : State :=
  { s with wires := {}, response := some r, log := s.log ++ [r] }

/-- `raise C` (60_exceptions.md R203, R205), the block's one way to take an exception: the response is the classification
and nothing else, with the diagnostic request of R209. It saves nothing and has no return (R206). -/
def raise (c : Classification) (s : State) : State :=
  respond { status := c, record := none, taps := none, diag := diagRequest c } s

/-- The taps show the DecodedFrame values of the decode in progress (10_state.md R26, 40_decode_pipeline.md R116). -/
def Wires.taps (w : Wires) : Option Taps :=
  match w.encrypted, w.serial, w.buttonRaw, w.batteryLow with
  | some e, some s, some b, some v => some { encrypted := e, serial := s, buttonRaw := b, batteryLow := v }
  | _, _, _, _ => none

/-- `emit record(rec); return OK` (45_record_builder.md R186). -/
def emitRecord (rec : Record) (s : State) : State :=
  respond { status := .ok, record := some rec, taps := s.wires.taps, diag := diagRequest .ok } s

/-! ### Stages 3 to 5 of one accepted frame -/

/-- Stages 3 and 4 (40_decode_pipeline.md R110, R111): the DecodedFrame of the nine data bytes. -/
def decodedFrame (d0 d1 d2 d3 d4 d5 d6 d7 d8 : Byte) : DecodedFrame :=
  { encrypted := xenc d0 d1 d2 d3, serial := xser d4 d5 d6 d7, buttonRaw := xbtn d7, learn := xlearn (xbtn d7),
    batteryLow := xbatt d8, rpt := xrpt d8, buttonIndex := btnperm (xbtn d7) }

/-- The transient values of a decode that has formed its DecodedFrame. -/
def DecodedFrame.wires (f : DecodedFrame) : Wires :=
  { encrypted := some f.encrypted, serial := some f.serial, buttonRaw := some f.buttonRaw, learn := some f.learn,
    batteryLow := some f.batteryLow, rpt := some f.rpt, buttonIndex := some f.buttonIndex }

/-- Stage 5's call of MKREC (40_decode_pipeline.md R110). -/
def DecodedFrame.record (f : DecodedFrame) : Record :=
  mkrec (fmtid f.serial) (batok f.batteryLow) f.buttonIndex f.learn f.rpt (fmtenc f.encrypted)

/-! ### The output ports -/

/-- The output ports (10_state.md R26). With a record `recModel` is the constant MODEL_STRING; a text port has its
first character in the most significant byte. -/
structure OutPorts where
  outValid        : Bool
  outStatus       : BitVec 2
  recValid        : Bool
  recModel        : String
  recIdHex        : BitVec 56
  recBatteryOk    : Bool
  recButton       : Nibble
  recLearn        : Bool
  recRepeat       : Bool
  recEncryptedHex : BitVec 64
  decEncrypted    : BitVec 32
  decSerial       : BitVec 32
  decButtonRaw    : Nibble
  decBatteryLow   : Bool
  diagValid       : Bool
  diagCode        : BitVec 2
  deriving DecidableEq, Repr

/-- A text on a port: the first character most significant (10_state.md R26, decision D10). -/
def packText {n : Nat} (w : Nat) (t : Text n) : BitVec w :=
  t.toList.foldl (fun (acc : BitVec w) c => acc <<< 8 ||| c.setWidth w) 0#w

/-- The record ports over the values `o` of the others (10_state.md R26). -/
def driveRecord (o : OutPorts) : Option Record → OutPorts
  | none => { o with recValid := false }
  | some r => { o with recValid := true, recModel := Config.modelString, recIdHex := packText 56 r.id,
                       recBatteryOk := r.batteryOk, recButton := r.button, recLearn := r.learn, recRepeat := r.rpt,
                       recEncryptedHex := packText 64 r.encrypted }

/-- The tap ports over the values `o` of the others (10_state.md R26). -/
def driveTaps (o : OutPorts) : Option Taps → OutPorts
  | none => o
  | some t => { o with decEncrypted := t.encrypted, decSerial := t.serial, decButtonRaw := t.buttonRaw,
                       decBatteryLow := t.batteryLow }

/-- The diagnostic ports over the values `o` of the others (60_exceptions.md R209). -/
def driveDiag (o : OutPorts) : Option Classification → OutPorts
  | none => { o with diagValid := false }
  | some c => { o with diagValid := true, diagCode := c.code }

/-- The ports that a response drives (40_decode_pipeline.md R116). `any` gives the ports that carry no meaning
(10_state.md R32): a claim about the ports holds for every `any` (log 5). -/
def drive (any : OutPorts) : Option Response → OutPorts
  | none => { any with outValid := false, recValid := false, diagValid := false }
  | some r =>
    driveDiag (driveTaps (driveRecord
      { any with outValid := true, outStatus := r.status.code } r.record) r.taps) r.diag

/-- The output ports of a state (10_state.md R26). -/
def State.outPorts (any : OutPorts) (s : State) : OutPorts := drive any s.response

/-- The records handed to the reporting collaborator so far, oldest first (45_record_builder.md R186). -/
def State.records (s : State) : List Record := s.log.filterMap (·.record)

/-- The diagnostic requests raised so far, oldest first (60_exceptions.md R209). -/
def State.diagnostics (s : State) : List Classification := s.log.filterMap (·.diag)

end Sys2Proof.Machine
end

