-- ==== Sys2Proof/Machine/Builder.lean ====
section
/-! DEFINITION. Stage 5, the Record Builder (45_record_builder.md): HEXDIG, FMTID, FMTENC, BATOK, MKREC, EMIT. -/

namespace Sys2Proof.Machine

/-- HEXDIG (R180). -/
def execHexdig (n : Nibble) (s : State) : Result :=
  .next { s with wires := { s.wires with hexdig := some (hexdig n) } }

/-- FMTID (R181). -/
def execFmtid (serial : BitVec 32) (s : State) : Result :=
  .next { s with wires := { s.wires with idText := some (fmtid serial) } }

/-- FMTENC (R182). -/
def execFmtenc (encrypted : BitVec 32) (s : State) : Result :=
  .next { s with wires := { s.wires with encText := some (fmtenc encrypted) } }

/-- BATOK (R183). -/
def execBatok (batteryLow : Bool) (s : State) : Result :=
  .next { s with wires := { s.wires with batteryOk := some (batok batteryLow) } }

/-- MKREC (R184). -/
def execMkrec (idText : Text 7) (batteryOk : Bool) (button : Nibble) (learn rpt : Bool) (encText : Text 8)
    (s : State) : Result :=
  .next { s with wires := { s.wires with record := some (mkrec idText batteryOk button learn rpt encText) } }

/-- EMIT (R186): the record is handed over and the response is OK. -/
def execEmit (rec : Record) (s : State) : Result := .next (emitRecord rec s)

end Sys2Proof.Machine
end

