-- ==== Sys2Proof/Machine/Button.lean ====
section
/-! DEFINITION. Stage 4, the Button Code Normalizer: BTNPERM (44_button_normalizer.md). -/

namespace Sys2Proof.Machine

/-- BTNPERM (R170). -/
def execBtnperm (buttonRaw : Nibble) (s : State) : Result :=
  .next { s with wires := { s.wires with buttonIndex := some (btnperm buttonRaw) } }

end Sys2Proof.Machine
end

