-- ==== Sys2Proof/Machine/Diagnostics.lean ====
section
/-! DEFINITION. DIAG, the diagnostic request (60_exceptions.md R209). -/

namespace Sys2Proof.Machine

/-- DIAG (R209): at most one request, gated by DIAG_EN, for PREAMBLE_MISMATCH and SANITY_FAIL only. -/
def execDiag (status : Classification) (s : State) : Result :=
  .next { s with wires := { s.wires with diag := diagRequest status } }

end Sys2Proof.Machine
end

