-- ==== Sys2Proof/Machine/Fields.lean ====
section
/-! DEFINITION. Stage 3, the Field Extractor (43_field_extractor.md): each operation forms its one value. -/

namespace Sys2Proof.Machine

/-- REV8 (R150). -/
def execRev8 (b : Byte) (s : State) : Result :=
  .next { s with wires := { s.wires with rev8 := some (rev8 b) } }

/-- XENC (R152). -/
def execXenc (d0 d1 d2 d3 : Byte) (s : State) : Result :=
  .next { s with wires := { s.wires with encrypted := some (xenc d0 d1 d2 d3) } }

/-- XSER (R153). -/
def execXser (d4 d5 d6 d7 : Byte) (s : State) : Result :=
  .next { s with wires := { s.wires with serial := some (xser d4 d5 d6 d7) } }

/-- XBTN (R154). -/
def execXbtn (d7 : Byte) (s : State) : Result :=
  .next { s with wires := { s.wires with buttonRaw := some (xbtn d7) } }

/-- XLEARN (R155). -/
def execXlearn (buttonRaw : Nibble) (s : State) : Result :=
  .next { s with wires := { s.wires with learn := some (xlearn buttonRaw) } }

/-- XBATT (R156). -/
def execXbatt (d8 : Byte) (s : State) : Result :=
  .next { s with wires := { s.wires with batteryLow := some (xbatt d8) } }

/-- XRPT (R157). -/
def execXrpt (d8 : Byte) (s : State) : Result :=
  .next { s with wires := { s.wires with rpt := some (xrpt d8) } }

end Sys2Proof.Machine
end

