-- ==== Sys2Proof/Machine/Frame.lean ====
section
/-! DEFINITION. DECODE by frame class (40_decode_pipeline.md R110, 30_encoding.md R85): the decoder has found the class,
which for the three rejections is the early exit taken and for OK lets stages 3 to 5 run. -/

namespace Sys2Proof.Machine

/-- DECODE of a frame of class LENGTH_MISMATCH (R115, R130): silently rejected, the content not read (20_memory.md R55). -/
def execDecodeLengthMismatch (_nrows _len0 _len1 : Nat) (s : State) : Result := .next (raise .lengthMismatch s)

/-- DECODE of a frame of class PREAMBLE_MISMATCH (R115, R131). -/
def execDecodePreambleMismatch (_h0 _h1 : Byte) (s : State) : Result := .next (raise .preambleMismatch s)

/-- DECODE of a frame of class SANITY_FAIL (R115, R140). -/
def execDecodeSanityFail (_d0 _d8 : Byte) (s : State) : Result := .next (raise .sanityFail s)

/-- DECODE of a frame of class OK (R110): stages 3 and 4 form the DecodedFrame, stage 5 builds its record and emits it. -/
def execDecodeOk (d0 d1 d2 d3 d4 d5 d6 d7 d8 : Byte) (s : State) : Result :=
  .next (emitRecord (decodedFrame d0 d1 d2 d3 d4 d5 d6 d7 d8).record
    { s with wires := (decodedFrame d0 d1 d2 d3 d4 d5 d6 d7 d8).wires })

end Sys2Proof.Machine
end

