-- ==== Sys2Proof/Machine/Sanity.lean ====
section
/-! DEFINITION. Stage 2, the Sanity Filter: SANCHK (42_sanity_filter.md). -/

namespace Sys2Proof.Machine

/-- SANCHK (R140): true requests the diagnostic and raises SANITY_FAIL; false lets stage 3 begin (R141). -/
def execSanchk (d1 d2 d3 d4 d5 d6 d7 : Byte) (s : State) : Result :=
  if sanchk d1 d2 d3 d4 d5 d6 d7 then .next (raise .sanityFail s)
  else .next { s with wires := { s.wires with noise := some false } }

end Sys2Proof.Machine
end

