-- ==== Sys2Proof/Machine/Shape.lean ====
section
/-! DEFINITION. Stage 1, the Frame Shape Validator: LENCHK and PRECHK (41_frame_shape_validator.md). -/

namespace Sys2Proof.Machine

/-- LENCHK (R130): false raises LENGTH_MISMATCH; true "falls through" silently (R132). -/
def execLenchk (nrows len0 len1 : Nat) (s : State) : Result :=
  if lenchk nrows len0 len1 then .next { s with wires := { s.wires with lengthOk := some true } }
  else .next (raise .lengthMismatch s)

/-- PRECHK (R131): false requests the diagnostic and raises PREAMBLE_MISMATCH; true falls through (R132). -/
def execPrechk (h0 h1 : Byte) (s : State) : Result :=
  if prechk h0 h1 then .next { s with wires := { s.wires with preambleOk := some true } }
  else .next (raise .preambleMismatch s)

end Sys2Proof.Machine
end

