-- ==== Sys2Proof/Machine/Dispatch.lean ====
section
/-! DEFINITION. The dispatch: one arm per constructor of Instr, one direct call of its meaning. -/

namespace Sys2Proof.Machine

/-- The meaning of each instruction. -/
def exec (i : Instr) (s : State) : Host.Outcome State Fault Refusal :=
  match i with
  | .decodeLengthMismatch nrows len0 len1 => Sys2Proof.Machine.execDecodeLengthMismatch nrows len0 len1 s
  | .decodePreambleMismatch h0 h1 => Sys2Proof.Machine.execDecodePreambleMismatch h0 h1 s
  | .decodeSanityFail d0 d8 => Sys2Proof.Machine.execDecodeSanityFail d0 d8 s
  | .decodeOk d0 d1 d2 d3 d4 d5 d6 d7 d8 => Sys2Proof.Machine.execDecodeOk d0 d1 d2 d3 d4 d5 d6 d7 d8 s
  | .lenchk nrows len0 len1 => Sys2Proof.Machine.execLenchk nrows len0 len1 s
  | .prechk h0 h1 => Sys2Proof.Machine.execPrechk h0 h1 s
  | .sanchk d1 d2 d3 d4 d5 d6 d7 => Sys2Proof.Machine.execSanchk d1 d2 d3 d4 d5 d6 d7 s
  | .rev8 b => Sys2Proof.Machine.execRev8 b s
  | .xenc d0 d1 d2 d3 => Sys2Proof.Machine.execXenc d0 d1 d2 d3 s
  | .xser d4 d5 d6 d7 => Sys2Proof.Machine.execXser d4 d5 d6 d7 s
  | .xbtn d7 => Sys2Proof.Machine.execXbtn d7 s
  | .xlearn buttonRaw => Sys2Proof.Machine.execXlearn buttonRaw s
  | .xbatt d8 => Sys2Proof.Machine.execXbatt d8 s
  | .xrpt d8 => Sys2Proof.Machine.execXrpt d8 s
  | .btnperm buttonRaw => Sys2Proof.Machine.execBtnperm buttonRaw s
  | .hexdig n => Sys2Proof.Machine.execHexdig n s
  | .fmtid serial => Sys2Proof.Machine.execFmtid serial s
  | .fmtenc encrypted => Sys2Proof.Machine.execFmtenc encrypted s
  | .batok batteryLow => Sys2Proof.Machine.execBatok batteryLow s
  | .mkrec idText batteryOk button learn rpt encText => Sys2Proof.Machine.execMkrec idText batteryOk button learn rpt encText s
  | .emit rec => Sys2Proof.Machine.execEmit rec s
  | .diag status => Sys2Proof.Machine.execDiag status s

end Sys2Proof.Machine
end

