-- ==== Sys2Proof/Machine/Step.lean ====
section
/-! DEFINITION. One step: the next event is taken; without a presentation the outputs fall silent, with one the decoded
instruction runs. There is no program counter (10_state.md R22): one presentation is one atomic step (decision D11). -/

namespace Sys2Proof.Machine

/-- The invocation of the next event, if it is one (an empty list is a port without `in_valid`). -/
def nextInvocation (s : State) : Option Invocation := s.inputs.head?.bind fetch

/-- One step. -/
def step (s : State) : Host.Outcome State Fault Refusal :=
  match nextInvocation s with
  | none => .next (quiet s)
  | some inv => exec (decode inv) (consume s)

/-- The state with a table word as its next event (log 11). A word that stands for no row places nothing. -/
def State.withFetchWord (s : State) (nbits w : Nat) : State :=
  match tableInvocation nbits w with
  | .ok inv => { s with inputs := stimulusOf inv :: s.inputs }
  | .error _ => s

end Sys2Proof.Machine
end

