-- ==== Sys2Proof/Machine/Pipeline.lean ====
section
/-! DEFINITION. DECODE as the one function of 40_decode_pipeline.md R110, written from its pseudocode line by line, and
the stage program: the sub-operations of R99 in the pipeline's order. The machine does not call these; statements compare
the machine with them. -/

namespace Sys2Proof.Machine

/-- `DECODE(nrows, len0, len1, row0, row1)` (40_decode_pipeline.md R110). -/
def pipeline (p : Presentation) : Response :=
  if lenchk p.nrows p.len0 p.len1 = false then
    { status := .lengthMismatch, record := none, taps := none, diag := none }
  else if prechk (p.byte0 0) (p.byte0 1) = false then
    { status := .preambleMismatch, record := none, taps := none,
      diag := if Config.diagEn then some .preambleMismatch else none }
  else if sanchk (p.byte1 1) (p.byte1 2) (p.byte1 3) (p.byte1 4) (p.byte1 5) (p.byte1 6) (p.byte1 7) = true then
    { status := .sanityFail, record := none, taps := none,
      diag := if Config.diagEn then some .sanityFail else none }
  else
    let encrypted := xenc (p.byte1 0) (p.byte1 1) (p.byte1 2) (p.byte1 3)
    let serial := xser (p.byte1 4) (p.byte1 5) (p.byte1 6) (p.byte1 7)
    let buttonRaw := xbtn (p.byte1 7)
    let learn := xlearn buttonRaw
    let batteryLow := xbatt (p.byte1 8)
    let rpt := xrpt (p.byte1 8)
    let buttonIndex := btnperm buttonRaw
    { status := .ok,
      record := some (mkrec (fmtid serial) (batok batteryLow) buttonIndex learn rpt (fmtenc encrypted)),
      taps := some { encrypted := encrypted, serial := serial, buttonRaw := buttonRaw, batteryLow := batteryLow },
      diag := none }

/-- What one port event answers: nothing under `rst` or without `in_valid` (40_decode_pipeline.md R116, R117; 10_state.md
R31), otherwise one response. -/
def portResponse (e : PortIn) : Option Response :=
  if e.rst || !e.inValid then none else some (pipeline e.frame)

/-- The emission log of a sequence of port events (95_test_vectors.md section 4). -/
def emissionLog (es : List PortIn) : List Response := es.filterMap portResponse

/-- Instructions run one after another on one state. -/
def execAll : List Instr → State → Result
  | [], s => .next s
  | i :: is, s =>
    match exec i s with
    | .next s' => execAll is s'
    | .fault f => .fault f
    | .refused r => .refused r

/-- The sub-operations of an accepted frame in the order of R110 (40_decode_pipeline.md R111), each on the operand the
pipeline gives it. -/
def stageProgram (h0 h1 d0 d1 d2 d3 d4 d5 d6 d7 d8 : Byte) : List Instr :=
  let f := decodedFrame d0 d1 d2 d3 d4 d5 d6 d7 d8
  [.lenchk 2 12 66, .prechk h0 h1, .sanchk d1 d2 d3 d4 d5 d6 d7,
   .xenc d0 d1 d2 d3, .xser d4 d5 d6 d7, .xbtn d7, .xlearn f.buttonRaw, .xbatt d8, .xrpt d8,
   .btnperm f.buttonRaw,
   .fmtid f.serial, .fmtenc f.encrypted, .batok f.batteryLow,
   .mkrec (fmtid f.serial) (batok f.batteryLow) f.buttonIndex f.learn f.rpt (fmtenc f.encrypted), .emit f.record]

end Sys2Proof.Machine
end

