-- ==== Sys2Proof/Safety.lean ====
section
/-! DEFINITION. What counts as a safe run: every response ever given is one that 40_decode_pipeline.md R115 allows. -/

namespace Sys2Proof.Machine

/-- A response R115 allows: a record exactly with `OK` (45_record_builder.md R186), taps only with `OK` and with a serial
below 2^28 (43_field_extractor.md R153), and the diagnostic request of 60_exceptions.md R209. -/
def Response.allowed (r : Response) : Bool :=
  (r.record.isSome == (r.status == .ok)) && (!r.taps.isSome || r.status == .ok) &&
  r.taps.all (fun t => t.serial.extractLsb' 28 4 == 0#4) && (r.diag == diagRequest r.status)

/-- The transient values stay in the ranges their rules give: `serial[31:28]` is 0 (R153) and the texts are hexadecimal. -/
def Wires.inRange (w : Wires) : Bool :=
  w.serial.all (fun v => v.extractLsb' 28 4 == 0#4) && w.hexdig.all isHexChar && w.idText.all isHexText &&
  w.encText.all isHexText

/-- The invariant of the machine: every logged response is allowed, the response on the ports is the last logged, and the
transient values are in range. -/
def State.Inv (s : State) : Prop :=
  (∀ r ∈ s.log, r.allowed = true) ∧ (∀ r, s.response = some r → s.log.getLast? = some r) ∧ s.wires.inRange = true

/-- The texts an event brings are hexadecimal. Only MKREC or EMIT invoked alone brings texts of its own (log 2). -/
def Stimulus.textsHex : Stimulus → Bool
  | .ports _ => true
  | .unit (.frame _ _) => true
  | .unit (.value _ _) => true
  | .unit (.record _ r) => r.isHex

/-- The texts of every record are uppercase hexadecimal (45_record_builder.md R180 to R182; 95_test_vectors.md L8): those
handed over, the one being built, and those the events to come bring. -/
def State.TextsHex (s : State) : Prop :=
  (∀ st ∈ s.inputs, st.textsHex = true) ∧ (∀ r ∈ s.log, r.record.all (·.isHex) = true) ∧
    s.wires.record.all (·.isHex) = true

/-- A safe step: the machine goes on, and the invariant and the form of the texts hold after it. -/
def Safe (s : State) : Prop := ∃ s', step s = .next s' ∧ s'.Inv ∧ s'.TextsHex

end Sys2Proof.Machine
end

