-- ==== Sys2Proof/Certificates/Slice0/Obligations.lean ====
section
/-! DEFINITION. The statements for the provers. Each docstring names the rule of spec/ it formalises. -/

namespace Sys2Proof.Claims

open Sys2Proof.Machine

/-- The port event that presents `p`: `rst = 0`, `in_valid = 1` (40_decode_pipeline.md R116). -/
def present (p : Presentation) : PortIn := { rst := false, inValid := true, frame := p }

/-- The state after an event that was answered with `r`: the event is taken, nothing transient is left, the response stands
on the ports and is logged once. -/
def answered (s : State) (rest : List Stimulus) (r : Response) : State :=
  { inputs := rest, wires := {}, response := some r, log := s.log ++ [r] }

/-- The response of a rejection: its classification, and a diagnostic request or none. -/
def rejection (c : Classification) (d : Option Classification) : Response :=
  { status := c, record := none, taps := none, diag := d }

/-- The state after an instruction that gave the response `r`. -/
def responded (s : State) (r : Response) : State :=
  { s with wires := {}, response := some r, log := s.log ++ [r] }

/-- The code of the uppercase hexadecimal digit of `n` below 16, by 45_record_builder.md R180's table: 0x30 to 0x39, then
0x41 to 0x46. -/
def hexCode (n : Nat) : Byte :=
  #v[0x30, 0x31, 0x32, 0x33, 0x34, 0x35, 0x36, 0x37, 0x38, 0x39, 0x41, 0x42, 0x43, 0x44, 0x45, 0x46][n % 16]'(by omega)

/-- The first two rows have the required shape (30_encoding.md R80). -/
def shapeRight (p : Presentation) : Prop := p.nrows = 2 ∧ p.len0 = 12 ∧ p.len1 = 66

/-- Row 0 is the preamble, by its bytes (30_encoding.md R81). -/
def preambleRight (p : Presentation) : Prop := p.byte0 0 = 0xFF#8 ∧ p.byte0 1 &&& 0xF0#8 = 0xF0#8

/-- Bytes 1 to 7 of row 1 are all 0xFF (42_sanity_filter.md R140). -/
def noiseRow (p : Presentation) : Prop := ∀ i : Fin 9, 1 ≤ i.val → i.val ≤ 7 → p.byte1 i = 0xFF#8

/-- The response to a presented frame is an accepted one with this record and these taps. -/
def accepted (rec : Record) (taps : Taps) : Response :=
  { status := .ok, record := some rec, taps := some taps, diag := none }

end Sys2Proof.Claims

open Sys2Proof Sys2Proof.Machine Sys2Proof.Claims

/-! ### The machine as a whole -/

/-- The invariant and the form of the texts hold after reset, and the three valid bits are 0 there, whatever the ports without meaning hold
(10_state.md R31; the empty event list and log are the model's choice, logs 1 and 4). -/
def Obligations.ResetIsSilentAndMeetsTheInvariant : Prop :=
  State.reset.Inv ∧ State.reset.TextsHex ∧ ∀ any : OutPorts, (State.reset.outPorts any).outValid = false ∧
    (State.reset.outPorts any).recValid = false ∧ (State.reset.outPorts any).diagValid = false

/-- A step takes the next event and runs the instruction its invocation decodes to (the list of events is the model's, log
1). Around exec, step removes the event and clears the last response. -/
def Obligations.StepRunsTheDecodedInstruction : Prop :=
  ∀ (s : State) (st : Stimulus) (rest : List Stimulus) (inv : Invocation),
    s.inputs = st :: rest → fetch st = some inv →
      step s = exec (decode inv) { inputs := rest, wires := s.wires, response := none, log := s.log }

/-- Without a presentation (`rst = 1`, or `in_valid = 0`, or no event) the step gives no response and the three valid bits
are 0, whatever the other ports hold (10_state.md R31, R32; 40_decode_pipeline.md R116; the spec's decisions D2 and D15, log 15). -/
def Obligations.NoPresentationGivesNoResponse : Prop :=
  ∀ s : State, (s.inputs = [] ∨ ∃ e rest, s.inputs = .ports e :: rest ∧ (e.rst = true ∨ e.inValid = false)) →
    ∃ t, step s = .next t ∧ t = { inputs := s.inputs.tail, wires := {}, response := none, log := s.log } ∧
      ∀ any : OutPorts, (t.outPorts any).outValid = false ∧ (t.outPorts any).recValid = false ∧
        (t.outPorts any).diagValid = false

/-- 70_reset_and_hazards.md R230: a presentation under `rst` is discarded, and the next presentation is decoded as if the
reset had not been (the spec's decision D15; the event list and that a reset clears the ports are logs 1 and 15). -/
def Obligations.ResetDiscardsOnlyItsOwnPresentation : Prop :=
  ∀ (s : State) (e : PortIn) (p : Presentation) (rest : List Stimulus),
    s.inputs = .ports e :: .ports (present p) :: rest → e.rst = true →
      ∃ t, step s = .next t ∧ t.response = none ∧ t.log = s.log ∧
        (∀ any : OutPorts, (t.outPorts any).outValid = false ∧ (t.outPorts any).recValid = false ∧
          (t.outPorts any).diagValid = false) ∧
        step t = .next (answered s rest (pipeline p)) ∧
        step { s with inputs := .ports (present p) :: rest } = .next (answered s rest (pipeline p))

/-- 40_decode_pipeline.md R110: a presented frame is answered as the rule's pseudocode says, once, and nothing else of the
state is left changed. Decoding by the table's 78-bit patterns and executing by class is the byte-level pipeline. (That
a wrong row count is LENGTH_MISMATCH is the spec's decision D4, log 7; the gate DIAG_EN its D8, log 8; the codes of the
texts its D10, log 10; the taps its D21; event list and emission log are the model's, logs 1 and 4.) -/
def Obligations.PresentationRunsThePipeline : Prop :=
  ∀ (s : State) (p : Presentation) (rest : List Stimulus), s.inputs = .ports (present p) :: rest →
    step s = .next (answered s rest (pipeline p))

/-- 40_decode_pipeline.md R117: each event with `in_valid = 1` is one invocation of DECODE and gives one response, in
order; a run over any sequence of port events from any state adds exactly that sequence's emission log (the spec's decision D25;
event list and log are the model's, logs 1 and 4). -/
def Obligations.EventSequenceGivesItsEmissionLog : Prop :=
  ∀ (es : List PortIn) (s : State), s.inputs = es.map .ports →
    ∃ t : State, Sys2Proof.core.run es.length s = .next t ∧ t.inputs = [] ∧ t.log = s.log ++ emissionLog es ∧
      t.records = s.records ++ (emissionLog es).filterMap (·.record) ∧
      t.diagnostics = s.diagnostics ++ (emissionLog es).filterMap (·.diag)

/-- Every step goes on: no presentation, reset or idle event stops the machine (40_decode_pipeline.md R113,
60_exceptions.md R207), and a sub-operation invoked alone runs on every operand (the model's device, log 2). -/
def Obligations.EveryStepGoesOn : Prop :=
  ∀ s : State, ∃ t, step s = .next t

/-- Every step keeps the invariant: every logged response is one 40_decode_pipeline.md R115 allows, the response on the
ports is the last logged, the transient values are in range: serial below 2^28 (43_field_extractor.md R153), digit codes
and texts in the hexadecimal alphabet (45_record_builder.md R180 to R182). The gate DIAG_EN of the request (60_exceptions.md
R209) is the spec's decision D8, log 8; the character codes are its decision D10 from general knowledge, log 10; the
emission log and running the sub-operations alone are the model's, logs 4 and 2. -/
def Obligations.StepKeepsTheInvariant : Prop :=
  ∀ s t : State, s.Inv → step s = .next t → t.Inv

/-- Every step keeps the texts of the records in the codes of the hexadecimal alphabet, where no event to come is an MKREC
or EMIT invoked alone on other texts (log 2): in particular under any events at the ports. Alphabet and ASCII codes are not
the source's: 45_record_builder.md R180 to R182 take them by the spec's decision D10 from general knowledge, log 10; the
emission log and the event list are the model's, logs 4 and 1. -/
def Obligations.StepKeepsTheTextsHexadecimal : Prop :=
  ∀ s t : State, s.TextsHex → step s = .next t → t.TextsHex

/-- Every event at the ports, a presentation or none, under reset or not, is a safe step: the machine goes on
(40_decode_pipeline.md R113, 60_exceptions.md R207), and the invariant and the form of the texts hold after it
(40_decode_pipeline.md R115, 43_field_extractor.md R153, 45_record_builder.md R180 to R182, 60_exceptions.md R209). The gate
DIAG_EN is the spec's decision D8, log 8; the character codes its D10, log 10; that an event under `rst` gets no response
its D15, log 15; event list and emission log are the model's, logs 1 and 4. -/
def Obligations.EveryPortEventIsSafe : Prop :=
  ∀ (s : State) (e : PortIn) (rest : List Stimulus), s.Inv → s.TextsHex → s.inputs = .ports e :: rest → Safe s

/-- A step adds to the emission log the response it puts on the ports, and nothing else; it takes one event (the event list and
the log are the model's, logs 1 and 4). -/
def Obligations.LogGrowsByTheResponseGiven : Prop :=
  ∀ s t : State, step s = .next t → t.inputs = s.inputs.tail ∧
    ((t.response = none ∧ t.log = s.log) ∨ ∃ r, t.response = some r ∧ t.log = s.log ++ [r] ∧ t.wires = {})

/-- 40_decode_pipeline.md R114, 10_state.md R28: the response to a presentation does not depend on anything before it or
after it. -/
def Obligations.ResponseDependsOnThePresentationAlone : Prop :=
  ∀ (s t : State) (p : Presentation) (rest rest' : List Stimulus),
    s.inputs = .ports (present p) :: rest → t.inputs = .ports (present p) :: rest' →
      ∃ s' t', step s = .next s' ∧ step t = .next t' ∧ s'.response = t'.response ∧ s'.wires = t'.wires ∧
        s'.response ≠ none ∧ ∀ any : OutPorts, s'.outPorts any = t'.outPorts any

/-- A table word, placed as the next event of any state, is run as the instruction the decoder reads from it (log 11); the
events that were to come are still to come. -/
def Obligations.TableWordRunsAsTheNextInstruction : Prop :=
  ∀ (s : State) (nbits w : Nat) (i : Instr), decodeTableWord nbits w = some i →
    step (s.withFetchWord nbits w) = exec i { s with response := none }

/-! ### Decoding -/

/-- Decode and encode agree: no operand of a well-formed instruction is dropped, changed or mixed with another. -/
def Obligations.EncodedInstructionDecodesBack : Prop :=
  ∀ i : Instr, i.wellFormed = true → decode (encode i) = i

/-- What the decoder gives is well formed, and a presented frame decodes to the class whose condition in 30_encoding.md R85
it meets, the conditions taken in R85's order, with the bytes that class reads; so each class is given only to frames that
meet its condition (that a wrong row count is LENGTH_MISMATCH is the spec's decision D4, log 7). -/
def Obligations.DecodedInstructionIsWellFormed : Prop :=
  (∀ inv : Invocation, (decode inv).wellFormed = true) ∧
  ∀ p : Presentation,
    (¬ shapeRight p → decode (.frame .decode p) = .decodeLengthMismatch p.nrows p.len0 p.len1) ∧
    (shapeRight p → ¬ preambleRight p →
      decode (.frame .decode p) = .decodePreambleMismatch (p.byte0 0) (p.byte0 1)) ∧
    (shapeRight p → preambleRight p → noiseRow p →
      decode (.frame .decode p) = .decodeSanityFail (p.byte1 0) (p.byte1 8)) ∧
    (shapeRight p → preambleRight p → ¬ noiseRow p →
      decode (.frame .decode p) = .decodeOk (p.byte1 0) (p.byte1 1) (p.byte1 2) (p.byte1 3) (p.byte1 4) (p.byte1 5)
        (p.byte1 6) (p.byte1 7) (p.byte1 8))

/-- Frames of 95_test_vectors.md (V1, V3, V4, V13, V14, V17) and value words of opcode_table.json, written out. That V17's
three rows are LENGTH_MISMATCH is the spec's decision D4, log 7; that code 2 is PREAMBLE_MISMATCH its decision D5, log 14;
invoking XLEARN, DIAG and FMTID alone is the model's, log 2. -/
def Obligations.WrittenOutWordsDecode : Prop :=
  decode (.frame .decode (frame 0xFF 0xF0 0x12 0x34 0x56 0x78 0x9A 0xBC 0xDE 0x07 0x00)) =
    .decodeOk 0x12 0x34 0x56 0x78 0x9A 0xBC 0xDE 0x07 0x00 ∧
  decode (.frame .decode (frame 0xFF 0xF0 0x12 0xFF 0xFF 0xFF 0xFF 0xFF 0xFF 0xFF 0x00)) =
    .decodeSanityFail 0x12 0x00 ∧
  decode (.frame .decode (frameLiteral 2 11 66 0xFF 0xF0 0x12 0x34 0x56 0x78 0x9A 0xBC 0xDE 0x07 0x00)) =
    .decodeLengthMismatch 2 11 66 ∧
  decode (.frame .decode (frame 0xFF 0xE0 0x12 0xFF 0xFF 0xFF 0xFF 0xFF 0xFF 0xFF 0x00)) =
    .decodePreambleMismatch 0xFF 0xE0 ∧
  decode (.frame .decode (frame 0x7F 0xF0 0x12 0x34 0x56 0x78 0x9A 0xBC 0xDE 0x07 0x00)) =
    .decodePreambleMismatch 0x7F 0xF0 ∧
  decode (.frame .decode (frameLiteral 3 12 66 0xFF 0xF0 0x12 0x34 0x56 0x78 0x9A 0xBC 0xDE 0x07 0x00)) =
    .decodeLengthMismatch 3 12 66 ∧
  decode (.value .xlearn 0xF#4) = (.xlearn 0xF#4) ∧
  decode (.value .diag 0x2#2) = (.diag .preambleMismatch) ∧
  decode (.value .fmtid 0x007B3D59#32) = (.fmtid 0x007B3D59#32)

/-- 20_memory.md R51 and R52: where a byte and a row bit stand on the ports, and how the two views are tied. -/
def Obligations.RowBitsStandInArrivalOrder : Prop :=
  ∀ p : Presentation,
    (∀ (i : Fin 2) (j : Nat), j < 8 → (p.byte0 i).getLsbD j = p.row0.getLsbD (8 - 8 * i.val + j)) ∧
    (∀ (i : Fin 9) (j : Nat), j < 8 → (p.byte1 i).getLsbD j = p.row1.getLsbD (64 - 8 * i.val + j)) ∧
    (∀ n : Fin 12, p.rowbit0 n = p.row0.getLsbD (15 - n.val)) ∧
    (∀ n : Fin 66, p.rowbit1 n = p.row1.getLsbD (71 - n.val)) ∧
    (∀ (i : Fin 2) (j : Nat) (h : 8 * i.val + 7 - j < 12), j < 8 → (p.byte0 i).getLsbD j = p.rowbit0 ⟨8 * i.val + 7 - j, h⟩) ∧
    (∀ (i : Fin 9) (j : Nat) (h : 8 * i.val + 7 - j < 66), j < 8 → (p.byte1 i).getLsbD j = p.rowbit1 ⟨8 * i.val + 7 - j, h⟩)

/-- The required row count and lengths fit on the ports at every legal NROWS_W and LEN_W (00_scope.md R6, decision D3), so
a frame that can be accepted can always be presented. -/
def Obligations.RequiredShapeFitsEveryPortWidth : Prop :=
  ∀ p : Presentation, shapeRight p → p.fitsPorts = true

/-! ### DECODE, by frame class -/

/-- 30_encoding.md R85 and 60_exceptions.md R204: every presented frame belongs to exactly one class, found in the fixed
order, and has that class's response (that a wrong row count is LENGTH_MISMATCH is the spec's decision D4, log 7; that
a diagnostic request needs DIAG_EN is its decision D8, log 8). -/
def Obligations.FrameClassesAndTheirResponses : Prop :=
  ∀ (s : State) (p : Presentation) (rest : List Stimulus), s.inputs = .ports (present p) :: rest →
    ∃ r, step s = .next (answered s rest r) ∧
      (¬ shapeRight p → r = rejection .lengthMismatch none) ∧
      (shapeRight p → ¬ preambleRight p →
        r = rejection .preambleMismatch (if Config.diagEn then some .preambleMismatch else none)) ∧
      (shapeRight p → preambleRight p → noiseRow p →
        r = rejection .sanityFail (if Config.diagEn then some .sanityFail else none)) ∧
      (shapeRight p → preambleRight p → ¬ noiseRow p →
        r.status = .ok ∧ r.record.isSome = true ∧ r.taps.isSome = true ∧ r.diag = none)

/-- 60_exceptions.md R202 and R203: the meaning of each rejecting class completes, and the response is the classification
with nothing of the frame in it; no record, no DecodedFrame value, one entry in the log (the
diagnostic request of the last two, and its gate DIAG_EN, are R209, the spec's decision D8, log 8). -/
def Obligations.RejectionGivesOnlyItsClassification : Prop :=
  ∀ s : State,
    (∀ nrows len0 len1, exec (.decodeLengthMismatch nrows len0 len1) s =
      .next (responded s (rejection .lengthMismatch none))) ∧
    (∀ h0 h1, exec (.decodePreambleMismatch h0 h1) s =
      .next (responded s (rejection .preambleMismatch (if Config.diagEn then some .preambleMismatch else none)))) ∧
    (∀ d0 d8, exec (.decodeSanityFail d0 d8) s =
      .next (responded s (rejection .sanityFail (if Config.diagEn then some .sanityFail else none))))

/-- 43_field_extractor.md R151 and the rest of stages 3 to 5: an accepted frame completes with one response, each byte
lane's bits go reversed to the one byte position of the one field, and the record is built from them (character codes: decision D10,
log 10; taps: decision D21). -/
def Obligations.AcceptedFrameFollowsItsByteLanes : Prop :=
  ∀ (s : State) (d0 d1 d2 d3 d4 d5 d6 d7 d8 : Byte), ∃ rec taps,
    exec (.decodeOk d0 d1 d2 d3 d4 d5 d6 d7 d8) s = .next (responded s (accepted rec taps)) ∧
    (∀ (i : Fin 4) (k : Nat), k < 8 → taps.encrypted.getLsbD (8 * i.val + k) = (#v[d0, d1, d2, d3][i]).getLsbD (7 - k)) ∧
    (∀ (i : Fin 3) (k : Nat), k < 8 → taps.serial.getLsbD (8 * i.val + k) = (#v[d4, d5, d6][i]).getLsbD (7 - k)) ∧
    (∀ k : Nat, k < 8 → taps.serial.getLsbD (24 + k) = (decide (k < 4) && d7.getLsbD (7 - k))) ∧
    taps.buttonRaw.toNat = d7.toNat % 16 ∧ taps.batteryLow = decide (128 ≤ d8.toNat) ∧
    rec.batteryOk = !taps.batteryLow ∧ rec.rpt = decide (64 ≤ d8.toNat % 128) ∧
    rec.learn = decide (d7.toNat % 16 = 15) ∧
    rec.button.getLsbD 3 = d7.getLsbD 3 ∧ rec.button.getLsbD 2 = d7.getLsbD 0 ∧
    rec.button.getLsbD 1 = d7.getLsbD 1 ∧ rec.button.getLsbD 0 = d7.getLsbD 2 ∧
    (∀ i : Fin 7, rec.id[i] = hexCode (taps.serial.toNat / 16 ^ (6 - i.val))) ∧
    (∀ i : Fin 8, rec.encrypted[i] = hexCode (taps.encrypted.toNat / 16 ^ (7 - i.val)))

/-- 30_encoding.md R83: the closed form of the assembly in row bits, for a presented frame that is accepted (the
spec marks the rule as derived from R52, R150 to R157 and R170). -/
def Obligations.AcceptedFieldsHaveTheirClosedForm : Prop :=
  ∀ (s : State) (p : Presentation) (rest : List Stimulus), s.inputs = .ports (present p) :: rest →
    shapeRight p → preambleRight p → ¬ noiseRow p →
      ∃ rec taps, step s = .next (answered s rest (accepted rec taps)) ∧
        (∀ (k : Nat) (h : k < 32), taps.encrypted.getLsbD k = p.rowbit1 ⟨k, by omega⟩) ∧
        (∀ (k : Nat) (h : k < 28), taps.serial.getLsbD k = p.rowbit1 ⟨32 + k, by omega⟩) ∧
        (∀ k : Nat, 28 ≤ k → k < 32 → taps.serial.getLsbD k = false) ∧
        (∀ (j : Nat) (h : j < 4), taps.buttonRaw.getLsbD j = p.rowbit1 ⟨63 - j, by omega⟩) ∧
        taps.batteryLow = p.rowbit1 64 ∧ rec.batteryOk = !(p.rowbit1 64) ∧ rec.rpt = p.rowbit1 65 ∧
        rec.button.getLsbD 3 = p.rowbit1 60 ∧ rec.button.getLsbD 2 = p.rowbit1 63 ∧
        rec.button.getLsbD 1 = p.rowbit1 62 ∧ rec.button.getLsbD 0 = p.rowbit1 61

/-- 20_memory.md R56: the ten padding bits may hold any value and no output depends on them (the spec's decision
D6). -/
def Obligations.PaddingBitsDoNotMatter : Prop :=
  ∀ (s : State) (p q : Presentation) (rest : List Stimulus),
    p.nrows = q.nrows → p.len0 = q.len0 → p.len1 = q.len1 →
    (∀ n : Fin 12, p.rowbit0 n = q.rowbit0 n) → (∀ n : Fin 66, p.rowbit1 n = q.rowbit1 n) →
      step { s with inputs := .ports (present p) :: rest } = step { s with inputs := .ports (present q) :: rest } ∧
      ∃ t, step { s with inputs := .ports (present p) :: rest } = .next t

/-- 20_memory.md R55: when the row count or a length is wrong, the frame is rejected and the response does not depend on
the rows at all; with a wrong preamble it is rejected and the response does not depend on row 1. -/
def Obligations.ContentIsReadInTheStatedOrder : Prop :=
  ∀ (s : State) (p : Presentation) (row0 : BitVec 16) (row1 : BitVec 72) (rest : List Stimulus),
    (¬ shapeRight p → ∃ r : Response, r.status ≠ .ok ∧ r.record = none ∧
      step { s with inputs := .ports (present p) :: rest } = .next (answered s rest r) ∧
      step { s with inputs := .ports (present { p with row0 := row0, row1 := row1 }) :: rest } =
        .next (answered s rest r)) ∧
    (shapeRight p → ¬ preambleRight p → ∃ r : Response, r.status ≠ .ok ∧ r.record = none ∧
      step { s with inputs := .ports (present p) :: rest } = .next (answered s rest r) ∧
      step { s with inputs := .ports (present { p with row1 := row1 }) :: rest } = .next (answered s rest r))

/-- The sub-operations of 30_encoding.md R99, run one after another in the order of 40_decode_pipeline.md R110 on the
operands the pipeline gives them, end in the state DECODE ends in (running them alone is the model's device, log 2). -/
def Obligations.StageProgramEqualsDecode : Prop :=
  ∀ (s : State) (h0 h1 d0 d1 d2 d3 d4 d5 d6 d7 d8 : Byte),
    h0 = 0xFF#8 → h1 &&& 0xF0#8 = 0xF0#8 → (Instr.decodeOk d0 d1 d2 d3 d4 d5 d6 d7 d8).wellFormed = true →
      execAll (stageProgram h0 h1 d0 d1 d2 d3 d4 d5 d6 d7 d8) s = exec (.decodeOk d0 d1 d2 d3 d4 d5 d6 d7 d8) s ∧
      ∃ t, execAll (stageProgram h0 h1 d0 d1 d2 d3 d4 d5 d6 d7 d8) s = .next t

/-- The record loses nothing but the padding: two accepted frames with the same record have the same 66 bits of row 1
(95_test_vectors.md L10). -/
def Obligations.RecordDeterminesTheDataRow : Prop :=
  ∀ (s t s' t' : State) (p q : Presentation) (rest rest' : List Stimulus) (r r' : Response) (rec : Record),
    s.inputs = .ports (present p) :: rest → t.inputs = .ports (present q) :: rest' →
    step s = .next s' → step t = .next t' → s'.response = some r → t'.response = some r' →
    r.record = some rec → r'.record = some rec → ∀ n : Fin 66, p.rowbit1 n = q.rowbit1 n

/-- 30_encoding.md R87's count: of the 2^66 data rows after a good preamble, 1024 are rejected as noise (the spec marks
the rule as derived from R85). -/
def Obligations.NoiseRejectsExactly1024DataRows : Prop :=
  {w : BitVec 66 | classify (frameOfNumber (0xFFF#12 ++ w)) = .sanityFail}.ncard = 1024 ∧
  ∀ w : BitVec 66, classify (frameOfNumber (0xFFF#12 ++ w)) = .sanityFail ∨
    classify (frameOfNumber (0xFFF#12 ++ w)) = .ok

/-- 30_encoding.md R88: a well-formed transmission of an all-ones payload above its low byte, serial and button code is
rejected whatever its low byte and flags, and an all-ones `encrypted` alone is not (the spec marks the rule as
derived from R82 and R85; the request's gate DIAG_EN is R209, its decision D8, log 8). -/
def Obligations.AllOnesTransmissionIsRejected : Prop :=
  ∀ (s : State) (rest : List Stimulus) (h1 : Byte), h1 &&& 0xF0#8 = 0xF0#8 →
    (∀ d0 d8 : Byte,
      step { s with inputs := .ports (present (frame 0xFF#8 h1 d0 0xFF#8 0xFF#8 0xFF#8 0xFF#8 0xFF#8 0xFF#8 0xFF#8 d8)) :: rest } =
        .next (answered s rest (rejection .sanityFail (if Config.diagEn then some .sanityFail else none)))) ∧
    (∀ d4 d5 d6 d7 d8 : Byte, (d4 ≠ 0xFF#8 ∨ d5 ≠ 0xFF#8 ∨ d6 ≠ 0xFF#8 ∨ d7 ≠ 0xFF#8) → ∃ rec taps,
      step { s with inputs := .ports (present (frame 0xFF#8 h1 0xFF#8 0xFF#8 0xFF#8 0xFF#8 d4 d5 d6 d7 d8)) :: rest } =
        .next (answered s rest (accepted rec taps)) ∧ taps.encrypted = 0xFFFFFFFF#32)

/-- 43_field_extractor.md R155 with 44_button_normalizer.md R171: in the record of any accepted frame, `learn` is set
exactly when `button` is 15, which is when the raw code is 0xF. -/
def Obligations.LearnExactlyWhenButtonIsFifteen : Prop :=
  ∀ (s : State) (p : Presentation) (rest : List Stimulus), s.inputs = .ports (present p) :: rest →
    shapeRight p → preambleRight p → ¬ noiseRow p →
      ∃ rec taps, step s = .next (answered s rest (accepted rec taps)) ∧
        (rec.learn = true ↔ rec.button.toNat = 15) ∧ (rec.learn = true ↔ taps.buttonRaw = 0xF#4) ∧
        (rec.learn = true ↔ (p.byte1 7).toNat % 16 = 15)

/-- 40_decode_pipeline.md R116 with the codes of 60_exceptions.md R201 and the request of R209: what the output ports show
for a presentation, whatever the ports without meaning hold; under `rst` and without a presentation the three valid bits
are 0 (the spec's decisions D2, D5, D7, D8, D10, D15 and D21; logs 5, 8, 10, 14, 15). -/
def Obligations.OutputPortsCarryTheResponse : Prop :=
  (Classification.ok.code = 0#2 ∧ Classification.lengthMismatch.code = 1#2 ∧
    Classification.preambleMismatch.code = 2#2 ∧ Classification.sanityFail.code = 3#2) ∧
  ∀ (s : State) (e : PortIn) (rest : List Stimulus) (any : OutPorts), s.inputs = .ports e :: rest →
    ∃ t, step s = .next t ∧
      (e.rst = true ∨ e.inValid = false → (t.outPorts any).outValid = false ∧ (t.outPorts any).recValid = false ∧
        (t.outPorts any).diagValid = false) ∧
      (e.rst = false → e.inValid = true → (t.outPorts any).outValid = true ∧
        (t.outPorts any).outStatus = (pipeline e.frame).status.code ∧
        ((t.outPorts any).recValid = true ↔ (t.outPorts any).outStatus = 0#2) ∧
        ((t.outPorts any).diagValid = true ↔
          Config.diagEn = true ∧ ((t.outPorts any).outStatus = 2#2 ∨ (t.outPorts any).outStatus = 3#2)) ∧
        ((t.outPorts any).diagValid = true → (t.outPorts any).diagCode = (t.outPorts any).outStatus) ∧
        ∀ rec taps, pipeline e.frame = accepted rec taps → (t.outPorts any).recModel = Config.modelString ∧
          (∀ i : Fin 7, (t.outPorts any).recIdHex.extractLsb' (48 - 8 * i.val) 8 = rec.id[i]) ∧
          (∀ i : Fin 8, (t.outPorts any).recEncryptedHex.extractLsb' (56 - 8 * i.val) 8 = rec.encrypted[i]) ∧
          (t.outPorts any).recBatteryOk = rec.batteryOk ∧ (t.outPorts any).recButton = rec.button ∧
          (t.outPorts any).recLearn = rec.learn ∧ (t.outPorts any).recRepeat = rec.rpt ∧
          (t.outPorts any).decEncrypted = taps.encrypted ∧ (t.outPorts any).decSerial = taps.serial ∧
          (t.outPorts any).decButtonRaw = taps.buttonRaw ∧ (t.outPorts any).decBatteryLow = taps.batteryLow)

/-! ### The sub-operations, each with its whole effect; everything not named is unchanged -/

/-- 41_frame_shape_validator.md R130: LENCHK is true exactly on 2, 12, 66, and then falls through; else it ends with
LENGTH_MISMATCH and no diagnostic (for a wrong row count by the spec's decision D4, log 7). -/
def Obligations.LengthTestDecidesByEquality : Prop :=
  ∀ (s : State) (nrows len0 len1 : Nat),
    (nrows = 2 ∧ len0 = 12 ∧ len1 = 66 → exec (.lenchk nrows len0 len1) s =
      .next { s with wires := { s.wires with lengthOk := some true } }) ∧
    (¬ (nrows = 2 ∧ len0 = 12 ∧ len1 = 66) → exec (.lenchk nrows len0 len1) s =
      .next (responded s (rejection .lengthMismatch none)))

/-- 41_frame_shape_validator.md R131: PRECHK is true exactly when all twelve bits of row 0 are 1 (the low nibble of `h1` is
padding), and then falls through; else it ends with PREAMBLE_MISMATCH (the request's gate DIAG_EN is R209, the spec's
decision D8, log 8). -/
def Obligations.PreambleTestReadsTwelveBits : Prop :=
  ∀ (s : State) (h0 h1 : Byte),
    ((∀ k, k < 8 → h0.getLsbD k = true) ∧ (∀ k, 4 ≤ k → k < 8 → h1.getLsbD k = true) → exec (.prechk h0 h1) s =
      .next { s with wires := { s.wires with preambleOk := some true } }) ∧
    (¬ ((∀ k, k < 8 → h0.getLsbD k = true) ∧ (∀ k, 4 ≤ k → k < 8 → h1.getLsbD k = true)) → exec (.prechk h0 h1) s =
      .next (responded s (rejection .preambleMismatch (if Config.diagEn then some .preambleMismatch else none))))

/-- 42_sanity_filter.md R140: SANCHK is true exactly when all seven bytes equal 0xFF, and then ends with SANITY_FAIL; one 0
bit anywhere lets the frame through (the request's gate DIAG_EN is R209, the spec's decision D8, log 8). -/
def Obligations.SanityTestNeedsAllSevenBytes : Prop :=
  ∀ (s : State) (d1 d2 d3 d4 d5 d6 d7 : Byte),
    ((∀ (i : Fin 7) (k : Nat), k < 8 → (#v[d1, d2, d3, d4, d5, d6, d7][i]).getLsbD k = true) →
      exec (.sanchk d1 d2 d3 d4 d5 d6 d7) s =
        .next (responded s (rejection .sanityFail (if Config.diagEn then some .sanityFail else none)))) ∧
    ((∃ (i : Fin 7) (k : Nat), k < 8 ∧ (#v[d1, d2, d3, d4, d5, d6, d7][i]).getLsbD k = false) →
      exec (.sanchk d1 d2 d3 d4 d5 d6 d7) s = .next { s with wires := { s.wires with noise := some false } })

/-- 43_field_extractor.md R150: REV8 reverses the bit order, and is its own inverse. -/
def Obligations.ByteReversalReversesAndUndoesItself : Prop :=
  ∀ (s : State) (b : Byte), ∃ v : Byte,
    exec (.rev8 b) s = .next { s with wires := { s.wires with rev8 := some v } } ∧
    (∀ k, k < 8 → v.getLsbD k = b.getLsbD (7 - k)) ∧
    exec (.rev8 v) s = .next { s with wires := { s.wires with rev8 := some b } }

/-- 43_field_extractor.md R152: bit `8i + k` of `encrypted` is bit `7 - k` of byte `i`. -/
def Obligations.EncryptedFieldAssembly : Prop :=
  ∀ (s : State) (d0 d1 d2 d3 : Byte), ∃ v : BitVec 32,
    exec (.xenc d0 d1 d2 d3) s = .next { s with wires := { s.wires with encrypted := some v } } ∧
    ∀ (i : Fin 4) (k : Nat), k < 8 → v.getLsbD (8 * i.val + k) = (#v[d0, d1, d2, d3][i]).getLsbD (7 - k)

/-- 43_field_extractor.md R153: the serial from bytes 4 to 6 and the high nibble of byte 7, `serial[31:28] = 0`. -/
def Obligations.SerialFieldAssembly : Prop :=
  ∀ (s : State) (d4 d5 d6 d7 : Byte), ∃ v : BitVec 32,
    exec (.xser d4 d5 d6 d7) s = .next { s with wires := { s.wires with serial := some v } } ∧
    (∀ (i : Fin 3) (k : Nat), k < 8 → v.getLsbD (8 * i.val + k) = (#v[d4, d5, d6][i]).getLsbD (7 - k)) ∧
    (∀ k, k < 4 → v.getLsbD (24 + k) = d7.getLsbD (7 - k)) ∧
    v.toNat < 2 ^ 28 ∧
    ∀ d7' : Byte, d7'.toNat / 16 = d7.toNat / 16 →
      exec (.xser d4 d5 d6 d7') s = .next { s with wires := { s.wires with serial := some v } }

/-- 43_field_extractor.md R154: `button_raw` is the low nibble of byte 7, not bit-reversed. -/
def Obligations.ButtonNibbleIsTakenUnreversed : Prop :=
  ∀ (s : State) (d7 : Byte), ∃ v : Nibble,
    exec (.xbtn d7) s = .next { s with wires := { s.wires with buttonRaw := some v } } ∧ v.toNat = d7.toNat % 16

/-- 43_field_extractor.md R155, R156, R157 and 45_record_builder.md R183: the three flags and the inverted battery flag. -/
def Obligations.FlagOperationsFormTheirFlags : Prop :=
  ∀ s : State,
    (∀ n : Nibble, exec (.xlearn n) s = .next { s with wires := { s.wires with learn := some (decide (n.toNat = 15)) } }) ∧
    (∀ d8 : Byte, exec (.xbatt d8) s =
      .next { s with wires := { s.wires with batteryLow := some (decide (128 ≤ d8.toNat)) } }) ∧
    (∀ d8 : Byte, exec (.xrpt d8) s =
      .next { s with wires := { s.wires with rpt := some (decide (64 ≤ d8.toNat % 128)) } }) ∧
    (∀ b : Bool, exec (.batok b) s = .next { s with wires := { s.wires with batteryOk := some (!b) } })

/-- 44_button_normalizer.md R170: bits 3 and 1 stay, bits 2 and 0 change places; and R171, which the spec marks as derived
from R170: the map is its own inverse (so a bijection), keeps the number of 1-bits, and gives 0xF exactly for 0xF. -/
def Obligations.ButtonPermutationSwapsBitsTwoAndZero : Prop :=
  ∀ (s : State) (n : Nibble), ∃ v : Nibble,
    exec (.btnperm n) s = .next { s with wires := { s.wires with buttonIndex := some v } } ∧
    v.getLsbD 3 = n.getLsbD 3 ∧ v.getLsbD 2 = n.getLsbD 0 ∧ v.getLsbD 1 = n.getLsbD 1 ∧ v.getLsbD 0 = n.getLsbD 2 ∧
    exec (.btnperm v) s = .next { s with wires := { s.wires with buttonIndex := some n } } ∧
    (v.getLsbD 0).toNat + (v.getLsbD 1).toNat + (v.getLsbD 2).toNat + (v.getLsbD 3).toNat =
      (n.getLsbD 0).toNat + (n.getLsbD 1).toNat + (n.getLsbD 2).toNat + (n.getLsbD 3).toNat ∧
    (v = 0xF#4 ↔ n = 0xF#4)

/-- 45_record_builder.md R180: the code of one uppercase hexadecimal digit (alphabet and ASCII codes: the
spec's decision D10 from general knowledge, log 10). -/
def Obligations.HexDigitGivesItsCharacterCode : Prop :=
  ∀ (s : State) (n : Nibble), exec (.hexdig n) s = .next { s with wires := { s.wires with hexdig := some (hexCode n.toNat) } }

/-- 45_record_builder.md R181: seven digits, most significant first, each written (digit order and codes:
decision D10, log 10). -/
def Obligations.IdTextHasSevenDigits : Prop :=
  ∀ (s : State) (serial : BitVec 32), ∃ t : Text 7,
    exec (.fmtid serial) s = .next { s with wires := { s.wires with idText := some t } } ∧
    ∀ i : Fin 7, t[i] = hexCode (serial.toNat / 16 ^ (6 - i.val))

/-- 45_record_builder.md R182: eight digits, most significant first (codes: decision D10, log 10). -/
def Obligations.EncryptedTextHasEightDigits : Prop :=
  ∀ (s : State) (v : BitVec 32), ∃ t : Text 8,
    exec (.fmtenc v) s = .next { s with wires := { s.wires with encText := some t } } ∧
    ∀ i : Fin 8, t[i] = hexCode (v.toNat / 16 ^ (7 - i.val))

/-- 45_record_builder.md R184 and R185, 30_encoding.md R95: MKREC builds the ordered list of seven pairs, `model` being the
constant MODEL_STRING (decision D9, log 8). -/
def Obligations.RecordIsTheOrderedListOfSevenPairs : Prop :=
  ∀ (s : State) (idText : Text 7) (bok : Bool) (btn : Nibble) (lrn rpt : Bool) (encText : Text 8), ∃ rec : Record,
    exec (.mkrec idText bok btn lrn rpt encText) s = .next { s with wires := { s.wires with record := some rec } } ∧
    (recordPairs rec).map (fun kv => (keyName kv.1, kv.2)) =
      [("model", .str Config.modelString), ("id", .chars idText.toList), ("battery_ok", .bool bok),
       ("button", .int btn.toNat), ("learn", .bool lrn), ("repeat", .bool rpt), ("encrypted", .chars encText.toList)]

/-- 45_record_builder.md R186: EMIT hands the record over once, with OK and no diagnostic, and nothing of it is kept but
the response. Of the presented frames, each accepted one adds exactly one record to those handed over, each rejected one
none. (That the hand-over always completes and is `rec_valid` = 1 is the spec's decision D2, log 19; EMIT run alone is the
model's, logs 2 and 17; the records handed over are counted in the model's emission log, log 4; that a wrong row count is
a rejection is the spec's decision D4, log 7.) -/
def Obligations.EmitHandsTheRecordOverOnce : Prop :=
  ∀ s : State,
    (∀ rec : Record, ∃ r : Response, exec (.emit rec) s = .next (responded s r) ∧
      r.status = .ok ∧ r.record = some rec ∧ r.diag = none ∧
      (∀ any : OutPorts, ((responded s r).outPorts any).recValid = true) ∧
      (responded s r).records = s.records ++ [rec]) ∧
    ∀ (p : Presentation) (rest : List Stimulus), s.inputs = .ports (present p) :: rest → ∃ t, step s = .next t ∧
      (shapeRight p ∧ preambleRight p ∧ ¬ noiseRow p → ∃ rec, t.records = s.records ++ [rec]) ∧
      (¬ (shapeRight p ∧ preambleRight p ∧ ¬ noiseRow p) → t.records = s.records)

/-- EMIT shows the DecodedFrame values the decode has formed on the taps (10_state.md R26, decision D21); with one of them
not formed, which only EMIT invoked alone can meet, the taps carry no meaning and the model gives none (log 17). -/
def Obligations.EmitShowsTheDecodedFrameOnTheTaps : Prop :=
  ∀ (s : State) (rec : Record),
    (∀ e v b l, s.wires.encrypted = some e → s.wires.serial = some v → s.wires.buttonRaw = some b →
      s.wires.batteryLow = some l → exec (.emit rec) s =
        .next (responded s (accepted rec { encrypted := e, serial := v, buttonRaw := b, batteryLow := l }))) ∧
    (s.wires.encrypted = none ∨ s.wires.serial = none ∨ s.wires.buttonRaw = none ∨ s.wires.batteryLow = none →
      exec (.emit rec) s = .next (responded s { status := .ok, record := some rec, taps := none, diag := none }))

/-- 60_exceptions.md R209: the diagnostic request, for PREAMBLE_MISMATCH and SANITY_FAIL only and only if DIAG_EN
(the spec's decision D8, log 8); its code is the status. -/
def Obligations.DiagnosticRequestIsGated : Prop :=
  ∀ s : State,
    exec (.diag .ok) s = .next { s with wires := { s.wires with diag := none } } ∧
    exec (.diag .lengthMismatch) s = .next { s with wires := { s.wires with diag := none } } ∧
    (∀ c, c = .preambleMismatch ∨ c = .sanityFail → exec (.diag c) s =
      .next { s with wires := { s.wires with diag := if Config.diagEn then some c else none } })
end

