-- ==== Sys2Proof/Laws/Decode.lean ====
section
/-! SUPPORT. What the read primitives give on a frame literal, what the class patterns test in bytes, and the codes. -/

namespace Sys2Proof

open Machine

theorem toNat_append_byte {n : Nat} (x : BitVec n) (y : Byte) : (x ++ y).toNat = x.toNat * 256 + y.toNat := by
  rw [BitVec.toNat_append, ← Nat.shiftLeft_add_eq_or_of_lt y.isLt, Nat.shiftLeft_eq]

theorem toNat_row16 (h0 h1 : Byte) : BitVec.toNat (w := 16) (h0 ++ h1) = h0.toNat * 256 + h1.toNat :=
  toNat_append_byte h0 h1

theorem toNat_row72 (d0 d1 d2 d3 d4 d5 d6 d7 d8 : Byte) :
    BitVec.toNat (w := 72) (d0 ++ d1 ++ d2 ++ d3 ++ d4 ++ d5 ++ d6 ++ d7 ++ d8) =
      (((((((d0.toNat * 256 + d1.toNat) * 256 + d2.toNat) * 256 + d3.toNat) * 256 + d4.toNat) * 256 + d5.toNat) * 256
        + d6.toNat) * 256 + d7.toNat) * 256 + d8.toNat := by
  refine (toNat_append_byte (d0 ++ d1 ++ d2 ++ d3 ++ d4 ++ d5 ++ d6 ++ d7) d8).trans ?_
  simp only [toNat_append_byte]

/-- `byte(0, i)` of a frame literal is its byte `h i` (30_encoding.md R97, 20_memory.md R51). -/
theorem byte0_frameLiteral (n l0 l1 : Nat) (h0 h1 d0 d1 d2 d3 d4 d5 d6 d7 d8 : Byte) (i : Fin 2) :
    (frameLiteral n l0 l1 h0 h1 d0 d1 d2 d3 d4 d5 d6 d7 d8).byte0 i = #v[h0, h1][i] := by
  apply BitVec.eq_of_toNat_eq
  simp only [Presentation.byte0, frameLiteral, BitVec.extractLsb'_toNat, toNat_row16, Nat.shiftRight_eq_div_pow]
  fin_cases i <;> simp <;> omega

/-- `byte(1, i)` of a frame literal is its byte `d i` (30_encoding.md R97, 20_memory.md R51). -/
theorem byte1_frameLiteral (n l0 l1 : Nat) (h0 h1 d0 d1 d2 d3 d4 d5 d6 d7 d8 : Byte) (i : Fin 9) :
    (frameLiteral n l0 l1 h0 h1 d0 d1 d2 d3 d4 d5 d6 d7 d8).byte1 i = #v[d0, d1, d2, d3, d4, d5, d6, d7, d8][i] := by
  apply BitVec.eq_of_toNat_eq
  simp only [Presentation.byte1, frameLiteral, BitVec.extractLsb'_toNat, toNat_row72, Nat.shiftRight_eq_div_pow]
  fin_cases i <;> simp <;> omega

theorem classificationOfCode_code (c : Classification) : classificationOfCode c.code = c := by
  cases c <;> rfl

theorem code_classificationOfCode : ∀ c : BitVec 2, (classificationOfCode c).code = c := by decide

/-- A bit of `byte(0, i)` on the port (20_memory.md R51). -/
theorem byte0_getLsbD (p : Presentation) (i : Fin 2) (j : Nat) (h : j < 8) :
    (p.byte0 i).getLsbD j = p.row0.getLsbD (8 - 8 * i.val + j) := by
  simp [Presentation.byte0, h]

/-- A bit of `byte(1, i)` on the port (20_memory.md R51). -/
theorem byte1_getLsbD (p : Presentation) (i : Fin 9) (j : Nat) (h : j < 8) :
    (p.byte1 i).getLsbD j = p.row1.getLsbD (64 - 8 * i.val + j) := by
  simp [Presentation.byte1, h]

theorem byte_eq_ff (b : Byte) : b = 0xFF#8 ↔ ∀ k, k < 8 → b.getLsbD k = true := by
  revert b; decide

theorem byte_high_eq_f0 (b : Byte) : b &&& 0xF0#8 = 0xF0#8 ↔ ∀ k, 4 ≤ k → k < 8 → b.getLsbD k = true := by
  constructor
  · intro h k h4 h8
    have := congrArg (fun x : Byte => x.getLsbD k) h
    interval_cases k <;> simpa using this
  · intro h
    apply BitVec.eq_of_getLsbD_eq
    intro i hi
    have : ∀ i : Fin 8, (0xF0#8).getLsbD i = decide (4 ≤ i.val) := by decide
    have hm := this ⟨i, hi⟩
    simp only [BitVec.getLsbD_and, hm]
    by_cases h4 : 4 ≤ i <;> simp [h4]
    exact h i h4 hi

/-- Bit `k` of the 78-bit number is row bit `77 - k` of the frame (30_encoding.md R86). -/
theorem frameNumber_getLsbD (p : Presentation) (k : Nat) (h : k < 78) :
    p.frameNumber.getLsbD k = if k < 66 then p.row1.getLsbD (6 + k) else p.row0.getLsbD (4 + (k - 66)) := by
  unfold Presentation.frameNumber
  refine (BitVec.getLsbD_append (n := 12) (m := 66)).trans ?_
  split <;> simp [BitVec.getLsbD_extractLsb'] <;> omega

/-- A pattern whose `match` equals its `mask` asks for 1 in every masked bit. -/
theorem Pattern.holds_iff (t : Pattern) (h : t.want = t.mask) (f : BitVec 78) :
    t.holds f = true ↔ ∀ k, k < 78 → t.mask.getLsbD k = true → f.getLsbD k = true := by
  simp only [Pattern.holds, h, beq_iff_eq]
  constructor
  · intro e k _ hm
    have := congrArg (fun x : BitVec 78 => x.getLsbD k) e
    simpa [hm] using this
  · intro hf
    apply BitVec.eq_of_getLsbD_eq
    intro k hk
    simp only [BitVec.getLsbD_and]
    cases hm : t.mask.getLsbD k
    · simp
    · simp [hf k hk hm]

/-- The mask of `DECODE.OK` is the twelve bits of row 0. -/
theorem okPattern_mask (k : Nat) (h : k < 78) : okPattern.mask.getLsbD k = decide (66 ≤ k) := by
  have : ∀ k : Fin 78, okPattern.mask.getLsbD k = decide (66 ≤ k.val) := by decide
  exact this ⟨k, h⟩

/-- The mask of `DECODE.SANITY_FAIL` is row 0 and row bits 8 to 63 of row 1. -/
theorem sanityFailPattern_mask (k : Nat) (h : k < 78) :
    sanityFailPattern.mask.getLsbD k = decide (66 ≤ k ∨ (2 ≤ k ∧ k < 58)) := by
  have : ∀ k : Fin 78, sanityFailPattern.mask.getLsbD k = decide (66 ≤ k.val ∨ (2 ≤ k.val ∧ k.val < 58)) := by decide
  exact this ⟨k, h⟩

/-- The table's preamble pattern is the byte test of 41_frame_shape_validator.md R131. -/
theorem okPattern_holds_eq_prechk (p : Presentation) :
    okPattern.holds p.frameNumber = prechk (p.byte0 0) (p.byte0 1) := by
  rw [Bool.eq_iff_iff, Pattern.holds_iff _ rfl]
  simp only [prechk, Bool.and_eq_true, beq_iff_eq, byte_eq_ff, byte_high_eq_f0]
  constructor
  · intro h
    refine ⟨fun k hk => ?_, fun k h4 hk => ?_⟩
    · rw [byte0_getLsbD _ _ _ hk]
      have := h (70 + k) (by omega) (by rw [okPattern_mask _ (by omega)]; simp; omega)
      rw [frameNumber_getLsbD _ _ (by omega), if_neg (by omega)] at this
      rw [← this]; congr 1; simp; omega
    · rw [byte0_getLsbD _ _ _ hk]
      have := h (62 + k) (by omega) (by rw [okPattern_mask _ (by omega)]; simp; omega)
      rw [frameNumber_getLsbD _ _ (by omega), if_neg (by omega)] at this
      rw [← this]; congr 1; simp; omega
  · rintro ⟨h0, h1⟩ k hk hm
    rw [okPattern_mask _ hk, decide_eq_true_eq] at hm
    rw [frameNumber_getLsbD _ _ hk, if_neg (by omega)]
    by_cases h8 : k < 70
    · have := h1 (k - 62) (by omega) (by omega)
      rw [byte0_getLsbD _ _ _ (by omega)] at this
      rw [← this]; congr 1; simp; omega
    · have := h0 (k - 70) (by omega)
      rw [byte0_getLsbD _ _ _ (by omega)] at this
      rw [← this]; congr 1; simp; omega

/-- After a good preamble the table's noise pattern is the byte test of 42_sanity_filter.md R140. -/
theorem sanityFailPattern_holds_eq (p : Presentation) (hp : okPattern.holds p.frameNumber = true) :
    sanityFailPattern.holds p.frameNumber =
      sanchk (p.byte1 1) (p.byte1 2) (p.byte1 3) (p.byte1 4) (p.byte1 5) (p.byte1 6) (p.byte1 7) := by
  rw [Pattern.holds_iff _ rfl] at hp
  rw [Bool.eq_iff_iff, Pattern.holds_iff _ rfl]
  have key : (∀ i : Fin 9, 1 ≤ i.val → i.val ≤ 7 → p.byte1 i = 0xFF#8) ↔
      sanchk (p.byte1 1) (p.byte1 2) (p.byte1 3) (p.byte1 4) (p.byte1 5) (p.byte1 6) (p.byte1 7) = true := by
    simp only [sanchk, Bool.and_eq_true, beq_iff_eq]
    constructor
    · intro h
      refine ⟨⟨⟨⟨⟨⟨?_, ?_⟩, ?_⟩, ?_⟩, ?_⟩, ?_⟩, ?_⟩ <;> exact h _ (by decide) (by decide)
    · rintro ⟨⟨⟨⟨⟨⟨h1, h2⟩, h3⟩, h4⟩, h5⟩, h6⟩, h7⟩ i ha hb
      fin_cases i <;> simp_all
  rw [← key]
  constructor
  · intro h i ha hb
    rw [byte_eq_ff]
    intro k hk
    rw [byte1_getLsbD _ _ _ hk]
    have := h (58 - 8 * i.val + k) (by omega) (by rw [sanityFailPattern_mask _ (by omega)]; simp; omega)
    rw [frameNumber_getLsbD _ _ (by omega), if_pos (by omega)] at this
    rw [← this]; congr 1; omega
  · intro h k hk hm
    rw [sanityFailPattern_mask _ hk, decide_eq_true_eq] at hm
    by_cases h66 : 66 ≤ k
    · exact hp k hk (by rw [okPattern_mask _ hk]; simpa using h66)
    · rw [frameNumber_getLsbD _ _ hk, if_pos (by omega)]
      have hi := h ⟨(65 - k) / 8, by omega⟩ (by simp; omega) (by simp; omega)
      rw [byte_eq_ff] at hi
      have := hi ((k + 6) % 8) (by omega)
      rw [byte1_getLsbD _ _ _ (by omega)] at this
      rw [← this]; congr 1; simp; omega

/-- The classes by the table's patterns are the classes by the byte tests, in the same order (30_encoding.md R85). -/
theorem classify_eq (p : Presentation) : classify p =
    if lenchk p.nrows p.len0 p.len1 = false then .lengthMismatch
    else if prechk (p.byte0 0) (p.byte0 1) = false then .preambleMismatch
    else if sanchk (p.byte1 1) (p.byte1 2) (p.byte1 3) (p.byte1 4) (p.byte1 5) (p.byte1 6) (p.byte1 7) = true then
      .sanityFail
    else .ok := by
  unfold classify
  rw [show rightShape p.nrows p.len0 p.len1 = lenchk p.nrows p.len0 p.len1 from rfl, ← okPattern_holds_eq_prechk]
  by_cases hp : okPattern.holds p.frameNumber = true
  · rw [sanityFailPattern_holds_eq p hp]
  · simp [hp]
/-- The class conditions of well-formedness are the byte tests of stages 1 and 2 (30_encoding.md R85). -/
theorem wellFormed_decodeLengthMismatch (nrows len0 len1 : Nat) :
    (Instr.decodeLengthMismatch nrows len0 len1).wellFormed = !lenchk nrows len0 len1 := rfl

theorem wellFormed_decodePreambleMismatch (h0 h1 : Byte) :
    (Instr.decodePreambleMismatch h0 h1).wellFormed = !prechk h0 h1 := rfl

theorem wellFormed_decodeOk (d0 d1 d2 d3 d4 d5 d6 d7 d8 : Byte) :
    (Instr.decodeOk d0 d1 d2 d3 d4 d5 d6 d7 d8).wellFormed = !sanchk d1 d2 d3 d4 d5 d6 d7 := by
  simp only [Instr.wellFormed, sanchk, Config.sanityByte, List.all_cons, List.all_nil, Bool.and_true, Bool.and_assoc]

/-- A byte of the short frame literal (30_encoding.md R97). -/
theorem byte0_frame (h0 h1 d0 d1 d2 d3 d4 d5 d6 d7 d8 : Byte) (i : Fin 2) :
    (frame h0 h1 d0 d1 d2 d3 d4 d5 d6 d7 d8).byte0 i = #v[h0, h1][i] := byte0_frameLiteral ..

theorem byte1_frame (h0 h1 d0 d1 d2 d3 d4 d5 d6 d7 d8 : Byte) (i : Fin 9) :
    (frame h0 h1 d0 d1 d2 d3 d4 d5 d6 d7 d8).byte1 i = #v[d0, d1, d2, d3, d4, d5, d6, d7, d8][i] :=
  byte1_frameLiteral ..

end Sys2Proof
end

