-- ==== Sys2Proof/Laws/State.lean ====
section
/-! SUPPORT. One lemma per field per update of the state, and what the shared operations give. -/

namespace Sys2Proof.Machine

@[simp] theorem consume_inputs (s : State) : (consume s).inputs = s.inputs.tail := rfl
@[simp] theorem consume_wires (s : State) : (consume s).wires = s.wires := rfl
@[simp] theorem consume_response (s : State) : (consume s).response = none := rfl
@[simp] theorem consume_log (s : State) : (consume s).log = s.log := rfl

@[simp] theorem quiet_inputs (s : State) : (quiet s).inputs = s.inputs.tail := rfl
@[simp] theorem quiet_wires (s : State) : (quiet s).wires = {} := rfl
@[simp] theorem quiet_response (s : State) : (quiet s).response = none := rfl
@[simp] theorem quiet_log (s : State) : (quiet s).log = s.log := rfl

@[simp] theorem respond_inputs (r : Response) (s : State) : (respond r s).inputs = s.inputs := rfl
@[simp] theorem respond_wires (r : Response) (s : State) : (respond r s).wires = {} := rfl
@[simp] theorem respond_response (r : Response) (s : State) : (respond r s).response = some r := rfl
@[simp] theorem respond_log (r : Response) (s : State) : (respond r s).log = s.log ++ [r] := rfl

@[simp] theorem diagRequest_ok : diagRequest .ok = none := by simp [diagRequest]
@[simp] theorem diagRequest_lengthMismatch : diagRequest .lengthMismatch = none := by simp [diagRequest]
@[simp] theorem diagRequest_preambleMismatch :
    diagRequest .preambleMismatch = if Config.diagEn then some .preambleMismatch else none := by simp [diagRequest]
@[simp] theorem diagRequest_sanityFail :
    diagRequest .sanityFail = if Config.diagEn then some .sanityFail else none := by simp [diagRequest]

/-- A request is for the status it accompanies, and only for the two rejections of 60_exceptions.md R209. -/
theorem diagRequest_eq_some {c d : Classification} (h : diagRequest c = some d) :
    d = c ∧ Config.diagEn = true ∧ (c = .preambleMismatch ∨ c = .sanityFail) := by
  cases c <;> simp_all [diagRequest]

@[simp] theorem wires_taps_decodedFrame (f : DecodedFrame) : f.wires.taps =
    some { encrypted := f.encrypted, serial := f.serial, buttonRaw := f.buttonRaw, batteryLow := f.batteryLow } := rfl

/-- The four values a tap needs, if the decode has formed them. -/
theorem wires_taps_of_some {w : Wires} {e v : BitVec 32} {b : Nibble} {l : Bool} (he : w.encrypted = some e)
    (hv : w.serial = some v) (hb : w.buttonRaw = some b) (hl : w.batteryLow = some l) :
    w.taps = some { encrypted := e, serial := v, buttonRaw := b, batteryLow := l } := by
  simp [Wires.taps, he, hv, hb, hl]

/-- If there are taps, each shows the transient value of its name. -/
theorem wires_taps_eq_some {w : Wires} {t : Taps} (h : w.taps = some t) :
    w.encrypted = some t.encrypted ∧ w.serial = some t.serial ∧ w.buttonRaw = some t.buttonRaw ∧
      w.batteryLow = some t.batteryLow := by
  unfold Wires.taps at h
  split at h <;> simp_all
  subst h
  simp

end Sys2Proof.Machine
end

