-- ==== Sys2Proof/Laws/Exec.lean ====
section
/-! SUPPORT. What any instruction can do to the state. -/

namespace Sys2Proof.Machine

/-- Every instruction either gives one response or writes transient values only. -/
theorem exec_effect {i : Instr} {s t : State} (h : exec i s = .next t) :
    (∃ r, t = respond r s) ∨ ∃ w, t = { s with wires := w } := by
  cases i <;>
    simp only [exec, execDecodeLengthMismatch, execDecodePreambleMismatch, execDecodeSanityFail, execDecodeOk,
      execLenchk, execPrechk, execSanchk, execRev8, execXenc, execXser, execXbtn, execXlearn, execXbatt, execXrpt,
      execBtnperm, execHexdig, execFmtid, execFmtenc, execBatok, execMkrec, execEmit, execDiag] at h <;>
    (try split at h) <;> cases h <;> first | exact .inl ⟨_, rfl⟩ | exact .inr ⟨_, rfl⟩

/-- What a step answers, once: silence without a presentation, the meaning of the decoded instruction with one. -/
theorem step_of_none {s : State} (h : nextInvocation s = none) : step s = .next (quiet s) := by
  simp [step, h]

theorem step_of_some {s : State} {inv : Invocation} (h : nextInvocation s = some inv) :
    step s = exec (decode inv) (consume s) := by
  simp [step, h]

/-- What stands for an invocation among the events is fetched as that invocation. -/
theorem fetch_stimulusOf (inv : Invocation) : fetch (stimulusOf inv) = some inv := by
  unfold stimulusOf
  split <;> rfl

end Sys2Proof.Machine
end

