-- ==== Sys2Proof/Laws/Fields.lean ====
section
/-! SUPPORT. What the value functions give, bit by bit or as a range. -/

namespace Sys2Proof.Machine

/-- REV8's bits (43_field_extractor.md R150). -/
theorem rev8_getLsbD (b : Byte) (k : Nat) (h : k < 8) : (rev8 b).getLsbD k = b.getLsbD (7 - k) := by
  revert b; interval_cases k <;> decide

theorem getLsbD_append_byte {n : Nat} (x : BitVec n) (y : Byte) (i : Nat) :
    BitVec.getLsbD (w := n + 8) (x ++ y) i = if i < 8 then y.getLsbD i else x.getLsbD (i - 8) :=
  BitVec.getLsbD_append

/-- The bits of four concatenated bytes (30_encoding.md R84). -/
theorem getLsbD_fourBytes (a b c d : Byte) (k : Nat) : BitVec.getLsbD (w := 32) (a ++ b ++ c ++ d) k =
    if k < 8 then d.getLsbD k else if k < 16 then c.getLsbD (k - 8) else if k < 24 then b.getLsbD (k - 16)
    else a.getLsbD (k - 24) := by
  refine (getLsbD_append_byte (a ++ b ++ c) d k).trans ?_
  simp only [getLsbD_append_byte]
  by_cases h1 : k < 8
  · simp [h1]
  · by_cases h2 : k < 16
    · simp [h1, h2, show k - 8 < 8 by omega]
    · by_cases h3 : k < 24
      · simp only [h1, h2, h3, show ¬ k - 8 < 8 by omega, show k - 8 - 8 < 8 by omega, if_true, if_false]; congr 1
      · simp only [h1, h2, h3, show ¬ k - 8 < 8 by omega, show ¬ k - 8 - 8 < 8 by omega, if_false]; congr 1

/-- XSER's value as a number of four reversed bytes. -/
theorem toNat_xser (d4 d5 d6 d7 : Byte) : (xser d4 d5 d6 d7).toNat =
    (((rev8 (d7 &&& 0xF0#8)).toNat * 256 + (rev8 d6).toNat) * 256 + (rev8 d5).toNat) * 256 + (rev8 d4).toNat := by
  unfold xser
  refine (toNat_append_byte (rev8 (d7 &&& 0xF0#8) ++ rev8 d6 ++ rev8 d5) (rev8 d4)).trans ?_
  simp only [toNat_append_byte]

/-- HEXDIG never leaves the alphabet (45_record_builder.md R180). -/
theorem isHexChar_hexdig (n : Nibble) : isHexChar (hexdig n) = true := by revert n; decide

theorem isHexText_fmtid (v : BitVec 32) : isHexText (fmtid v) = true := by simp [fmtid, isHexText, isHexChar_hexdig]

theorem isHexText_fmtenc (v : BitVec 32) : isHexText (fmtenc v) = true := by simp [fmtenc, isHexText, isHexChar_hexdig]

/-- HEXDIG tells the sixteen digits apart. -/
theorem hexdig_injective : ∀ a b : Nibble, hexdig a = hexdig b → a = b := by decide

end Sys2Proof.Machine
end

