-- ==== Sys2Proof/Laws/PerInstr.lean ====
section
/-! SUPPORT. A family of per-instruction lemmas: what the encoder writes always lies inside the table's encoding. -/

namespace Sys2Proof.Laws.EncodedShape

/-- A frame operation is encoded in a frame of the right shape (30_encoding.md R80), but where the shape is the operand;
a value or record operation is well formed whatever its operand. -/
def Statement (i : Instr) : Prop :=
  match encode i with
  | .frame _ p => rightShape p.nrows p.len0 p.len1 = true ∨
      ∃ n l0 l1, i = .decodeLengthMismatch n l0 l1 ∨ i = .lenchk n l0 l1
  | .value _ _ => i.wellFormed = true
  | .record _ _ => i.wellFormed = true

theorem decodeLengthMismatch (nrows len0 len1 : Nat) : Statement (.decodeLengthMismatch nrows len0 len1) := .inr ⟨nrows, len0, len1, .inl rfl⟩

theorem decodePreambleMismatch (h0 h1 : Byte) : Statement (.decodePreambleMismatch h0 h1) := .inl rfl

theorem decodeSanityFail (d0 d8 : Byte) : Statement (.decodeSanityFail d0 d8) := .inl rfl

theorem decodeOk (d0 d1 d2 d3 d4 d5 d6 d7 d8 : Byte) : Statement (.decodeOk d0 d1 d2 d3 d4 d5 d6 d7 d8) := .inl rfl

theorem lenchk (nrows len0 len1 : Nat) : Statement (.lenchk nrows len0 len1) := .inr ⟨nrows, len0, len1, .inr rfl⟩

theorem prechk (h0 h1 : Byte) : Statement (.prechk h0 h1) := .inl rfl

theorem sanchk (d1 d2 d3 d4 d5 d6 d7 : Byte) : Statement (.sanchk d1 d2 d3 d4 d5 d6 d7) := .inl rfl

theorem rev8 (b : Byte) : Statement (.rev8 b) := rfl

theorem xenc (d0 d1 d2 d3 : Byte) : Statement (.xenc d0 d1 d2 d3) := .inl rfl

theorem xser (d4 d5 d6 d7 : Byte) : Statement (.xser d4 d5 d6 d7) := .inl rfl

theorem xbtn (d7 : Byte) : Statement (.xbtn d7) := .inl rfl

theorem xlearn (n : Nibble) : Statement (.xlearn n) := rfl

theorem xbatt (d8 : Byte) : Statement (.xbatt d8) := .inl rfl

theorem xrpt (d8 : Byte) : Statement (.xrpt d8) := .inl rfl

theorem btnperm (n : Nibble) : Statement (.btnperm n) := rfl

theorem hexdig (n : Nibble) : Statement (.hexdig n) := rfl

theorem fmtid (v : BitVec 32) : Statement (.fmtid v) := rfl

theorem fmtenc (v : BitVec 32) : Statement (.fmtenc v) := rfl

theorem batok (b : Bool) : Statement (.batok b) := rfl

theorem mkrec (idText : Text 7) (bok : Bool) (btn : Nibble) (lrn rpt : Bool) (encText : Text 8) : Statement (.mkrec idText bok btn lrn rpt encText) := rfl

theorem emit (r : Record) : Statement (.emit r) := rfl

theorem diag (c : Classification) : Statement (.diag c) := rfl

end Sys2Proof.Laws.EncodedShape
end

