-- ==== Sys2Proof/Tests/Slice0.lean ====
section
/-! SUPPORT. Tests. The expected values are those of spec/95_test_vectors.md (V, section and program numbers) or are worked
out by hand from the rule named. -/

namespace Sys2Proof.Tests

open Sys2Proof.Machine Sys2Proof.Claims

/-- The reset state with one frame presented. -/
def withFrame (p : Presentation) : State := { State.reset with inputs := [.ports (present p)] }

/-- The state after a step, or the reset state if it did not go on. -/
def after (s : State) : State :=
  match step s with
  | .next t => t
  | .fault _ => State.reset
  | .refused _ => State.reset

/-- The record a presented frame is answered with. -/
def recordOf (p : Presentation) : Option Record := (after (withFrame p)).response.bind (·.record)

/-- The taps of a presented frame's response. -/
def tapsOf (p : Presentation) : Option Taps := (after (withFrame p)).response.bind (·.taps)

/-- The classification of a presented frame's response. -/
def statusOf (p : Presentation) : Option Classification := (after (withFrame p)).response.map (·.status)

/-- The transient values after an instruction on the reset state. -/
def wiresAfter (i : Instr) : Wires :=
  match exec i State.reset with
  | .next t => t.wires
  | .fault _ => {}
  | .refused _ => {}

/-- The classification an instruction on the reset state responds with, if it responds. -/
def statusAfter (i : Instr) : Option Classification :=
  match exec i State.reset with
  | .next t => t.response.map (·.status)
  | .fault _ => none
  | .refused _ => none

/-- V1, Scenario A. -/
def v1 : Presentation := frame 0xFF 0xF0 0x12 0x34 0x56 0x78 0x9A 0xBC 0xDE 0x07 0x00

/-- V3, Scenario C. -/
def v3 : Presentation := frame 0xFF 0xF0 0x12 0xFF 0xFF 0xFF 0xFF 0xFF 0xFF 0xFF 0x00

/-- V4, Scenario D. -/
def v4 : Presentation := frameLiteral 2 11 66 0xFF 0xF0 0x12 0x34 0x56 0x78 0x9A 0xBC 0xDE 0x07 0x00

/-- V28: V1 with other padding bits. -/
def v28 : Presentation := frame 0xFF 0xF5 0x12 0x34 0x56 0x78 0x9A 0xBC 0xDE 0x07 0x2A

/-- V13: the preamble outranks the noise test. -/
def v13 : Presentation := frame 0xFF 0xE0 0x12 0xFF 0xFF 0xFF 0xFF 0xFF 0xFF 0xFF 0x00

/-! ### WellFormed refuses, check by check -/

theorem test_illFormed_lengthMismatch_of_right_shape : (Instr.decodeLengthMismatch 2 12 66).wellFormed = false := by decide
theorem test_illFormed_preambleMismatch_of_good_preamble : (Instr.decodePreambleMismatch 0xFF 0xF5).wellFormed = false := by decide
theorem test_illFormed_ok_of_noise : (Instr.decodeOk 0 0xFF 0xFF 0xFF 0xFF 0xFF 0xFF 0xFF 0).wellFormed = false := by decide

/-! ### Every constructor's decoding, by a word written out from its row of opcode_table.json -/

/-- V1's 78 bits of 95_test_vectors.md section 2.14. -/
theorem test_frameNumber_v1 :
    v1.frameNumber = 0b111111111111000100100011010001010110011110001001101010111100110111100000011100#78 := by decide
theorem test_decode_ok : decode (.frame .decode v1) =
    .decodeOk 0x12 0x34 0x56 0x78 0x9A 0xBC 0xDE 0x07 0x00 := by rfl
theorem test_decode_sanityFail : decode (.frame .decode v3) = .decodeSanityFail 0x12 0x00 := by rfl
theorem test_decode_preambleMismatch : decode (.frame .decode v13) = .decodePreambleMismatch 0xFF 0xE0 := by rfl
theorem test_decode_lengthMismatch : decode (.frame .decode v4) = .decodeLengthMismatch 2 11 66 := by rfl
theorem test_decode_lenchk : decode (.frame .lenchk v4) = .lenchk 2 11 66 := by rfl
theorem test_decode_prechk : decode (.frame .prechk v13) = .prechk 0xFF 0xE0 := by rfl
theorem test_decode_sanchk : decode (.frame .sanchk v1) =
    .sanchk 0x34 0x56 0x78 0x9A 0xBC 0xDE 0x07 := by rfl
theorem test_decode_xenc : decode (.frame .xenc v1) = .xenc 0x12 0x34 0x56 0x78 := by rfl
theorem test_decode_xser : decode (.frame .xser v1) = .xser 0x9A 0xBC 0xDE 0x07 := by rfl
theorem test_decode_xbtn : decode (.frame .xbtn v1) = .xbtn 0x07 := by rfl
theorem test_decode_xbatt : decode (.frame .xbatt v1) = .xbatt 0x00 := by rfl
theorem test_decode_xrpt : decode (.frame .xrpt v1) = .xrpt 0x00 := by rfl
theorem test_decode_rev8 : decode (.value .rev8 0b00010010#8) = .rev8 0x12 := by rfl
theorem test_decode_xlearn : decode (.value .xlearn 0b1111#4) = .xlearn 0xF := by rfl
theorem test_decode_btnperm : decode (.value .btnperm 0b0100#4) = .btnperm 0x4 := by rfl
theorem test_decode_hexdig : decode (.value .hexdig 0b1011#4) = .hexdig 0xB := by rfl
theorem test_decode_fmtid : decode (.value .fmtid 0x007B3D59#32) = .fmtid 0x007B3D59 := by rfl
theorem test_decode_fmtenc : decode (.value .fmtenc 0x1E6A2C48#32) = .fmtenc 0x1E6A2C48 := by rfl
theorem test_decode_batok : decode (.value .batok 0b1#1) = .batok true := by rfl
theorem test_decode_diag : decode (.value .diag 0b10#2) = .diag .preambleMismatch := by rfl
theorem test_decode_mkrec : decode (.record .mkrec zeroRecord) =
    .mkrec zeroRecord.id false 0 false false zeroRecord.encrypted := by rfl
theorem test_decode_emit : decode (.record .emit zeroRecord) = .emit zeroRecord := by rfl
theorem test_word_rejected_beyond_row : tableInvocation 2 4 = .error (.bitBeyondRow 2) := by rfl
theorem test_word_rejected_no_row : tableInvocation 12 0 = .error (.noRowOfWidth 12) := by rfl

/-! ### DECODE, by frames of 95_test_vectors.md -/

/-- V1: OK, id 07B3D59, battery_ok, button 7, encrypted 1E6A2C48. -/
theorem test_v1_record : recordOf v1 = some
    { id := #v[0x30, 0x37, 0x42, 0x33, 0x44, 0x35, 0x39], batteryOk := true, button := 7, learn := false, rpt := false,
      encrypted := #v[0x31, 0x45, 0x36, 0x41, 0x32, 0x43, 0x34, 0x38] } := by decide
/-- V1 at the ports: dec_encrypted, dec_serial, dec_button_raw, dec_battery_low (section 2.14). -/
theorem test_v1_taps : tapsOf v1 = some
    { encrypted := 0x1E6A2C48, serial := 0x007B3D59, buttonRaw := 0x7, batteryLow := false } := by decide
/-- V18: OK, id D5D7F53, low battery, button 4, repeat, encrypted F77DB57B. -/
theorem test_v18_record : recordOf (frame 0xFF 0xF0 0xDE 0xAD 0xBE 0xEF 0xCA 0xFE 0xBA 0xB1 0xC0) = some
    { id := #v[0x44, 0x35, 0x44, 0x37, 0x46, 0x35, 0x33], batteryOk := false, button := 4, learn := false, rpt := true,
      encrypted := #v[0x46, 0x37, 0x37, 0x44, 0x42, 0x35, 0x37, 0x42] } := by decide
/-- V28: the padding bits do not matter. -/
theorem test_v28_record : recordOf v28 = recordOf v1 := by decide
theorem test_v3_status : statusOf v3 = some .sanityFail := by decide
/-- V6: byte 0 and byte 8 play no part in the noise test. -/
theorem test_v6_status : statusOf (frame 0xFF 0xF0 0x00 0xFF 0xFF 0xFF 0xFF 0xFF 0xFF 0xFF 0x3F) = some .sanityFail := by decide
theorem test_v4_status : statusOf v4 = some .lengthMismatch := by decide
/-- V17: three rows. -/
theorem test_v17_status :
    statusOf (frameLiteral 3 12 66 0xFF 0xF0 0x12 0x34 0x56 0x78 0x9A 0xBC 0xDE 0x07 0x00) = some .lengthMismatch := by decide
theorem test_v13_status : statusOf v13 = some .preambleMismatch := by decide
/-- V25: the high nibble of byte 1 is tested, not the low. -/
theorem test_v25_status : statusOf (frame 0xFF 0x0F 0x12 0x34 0x56 0x78 0x9A 0xBC 0xDE 0x07 0x00) = some .preambleMismatch := by
  decide
/-- P4 step 2: no response under `rst`. -/
theorem test_p4_reset_gives_no_response :
    (after { State.reset with inputs := [.ports { rst := true, inValid := true, frame := v1 }] }).response = none := by decide
/-- The port values of V1 and V3 (section 2.14), whatever the ports without meaning hold. -/
theorem test_v1_ports (any : OutPorts) :
    ((after (withFrame v1)).outPorts any).recIdHex = 0x30374233443539#56 ∧
    ((after (withFrame v1)).outPorts any).recEncryptedHex = 0x3145364132433438#64 ∧
    ((after (withFrame v1)).outPorts any).outStatus = 0#2 ∧ ((after (withFrame v1)).outPorts any).recValid = true := by
  refine ⟨?_, ?_, ?_, ?_⟩ <;> rfl
theorem test_v3_ports (any : OutPorts) : ((after (withFrame v3)).outPorts any).diagValid = Config.diagEn ∧
    ((after (withFrame v3)).outPorts any).outStatus = 3#2 ∧ ((after (withFrame v3)).outPorts any).recValid = false := by
  have h : (after (withFrame v3)).response = some (rejection .sanityFail (if Config.diagEn then some .sanityFail else none)) := by
    rfl
  cases hd : Config.diagEn <;> simp [State.outPorts, h, drive, driveRecord, driveTaps, driveDiag, rejection, hd,
    Classification.code]

/-! ### The sub-operations, by the tables of sections 2.2 to 2.13 -/

theorem test_lenchk_true : (wiresAfter (.lenchk 2 12 66)).lengthOk = some true := by decide
theorem test_lenchk_13 : statusAfter (.lenchk 2 13 66) = some .lengthMismatch := by decide
theorem test_prechk_padding : (wiresAfter (.prechk 0xFF 0xF5)).preambleOk = some true := by decide
theorem test_prechk_ef : statusAfter (.prechk 0xFF 0xEF) = some .preambleMismatch := by decide
theorem test_sanchk_all : statusAfter (.sanchk 0xFF 0xFF 0xFF 0xFF 0xFF 0xFF 0xFF) = some .sanityFail := by decide
theorem test_sanchk_fe : (wiresAfter (.sanchk 0xFF 0xFF 0xFF 0xFF 0xFF 0xFF 0xFE)).noise = some false := by decide
theorem test_rev8_12 : (wiresAfter (.rev8 0x12)).rev8 = some 0x48 := by decide
theorem test_rev8_50 : (wiresAfter (.rev8 0x50)).rev8 = some 0x0A := by decide
theorem test_xenc_v1 : (wiresAfter (.xenc 0x12 0x34 0x56 0x78)).encrypted = some 0x1E6A2C48 := by decide
theorem test_xenc_bit31 : (wiresAfter (.xenc 0x00 0x00 0x00 0x01)).encrypted = some 0x80000000 := by decide
theorem test_xser_57 : (wiresAfter (.xser 0x9A 0xBC 0xDE 0x57)).serial = some 0x0A7B3D59 := by decide
theorem test_xser_low_nibble_masked : (wiresAfter (.xser 0x00 0x00 0x00 0x0F)).serial = some 0 := by decide
theorem test_xbtn_e4 : (wiresAfter (.xbtn 0xE4)).buttonRaw = some 0x4 := by decide
theorem test_xlearn_e : (wiresAfter (.xlearn 0xE)).learn = some false := by decide
theorem test_xlearn_f : (wiresAfter (.xlearn 0xF)).learn = some true := by decide
theorem test_xbatt_bf : (wiresAfter (.xbatt 0xBF)).batteryLow = some true := by decide
theorem test_xbatt_7f : (wiresAfter (.xbatt 0x7F)).batteryLow = some false := by decide
theorem test_xrpt_40 : (wiresAfter (.xrpt 0x40)).rpt = some true := by decide
theorem test_xrpt_bf : (wiresAfter (.xrpt 0xBF)).rpt = some false := by decide
theorem test_btnperm_e : (wiresAfter (.btnperm 0xE)).buttonIndex = some 0xB := by decide
theorem test_btnperm_1 : (wiresAfter (.btnperm 0x1)).buttonIndex = some 0x4 := by decide
theorem test_hexdig_9 : (wiresAfter (.hexdig 9)).hexdig = some 0x39 := by decide
theorem test_hexdig_10 : (wiresAfter (.hexdig 10)).hexdig = some 0x41 := by decide
theorem test_fmtid_abcdef0 :
    (wiresAfter (.fmtid 0x0ABCDEF0)).idText = some #v[0x41, 0x42, 0x43, 0x44, 0x45, 0x46, 0x30] := by decide
/-- R181 reads bits 27:0 only: 29 bits run as the low 28. -/
theorem test_fmtid_top_nibble_not_read :
    (wiresAfter (.fmtid 0xFABCDEF0)).idText = some #v[0x41, 0x42, 0x43, 0x44, 0x45, 0x46, 0x30] := by decide
theorem test_fmtenc_000abcde :
    (wiresAfter (.fmtenc 0x000ABCDE)).encText = some #v[0x30, 0x30, 0x30, 0x41, 0x42, 0x43, 0x44, 0x45] := by decide
theorem test_batok : (wiresAfter (.batok true)).batteryOk = some false := by decide
theorem test_mkrec : (wiresAfter (.mkrec zeroRecord.id true 7 false true zeroRecord.encrypted)).record =
    some { zeroRecord with batteryOk := true, button := 7, rpt := true } := by decide
/-- EMIT runs on any text: the record is handed over as it is. -/
theorem test_emit_any_text : (match exec (.emit { zeroRecord with id := #v[0x61, 0, 0, 0, 0, 0, 0xFF] }) State.reset with
    | .next t => t.records.map (·.id)
    | .fault _ => []
    | .refused _ => []) = [#v[0x61, 0, 0, 0, 0, 0, 0xFF]] := by decide
theorem test_emit : statusAfter (.emit zeroRecord) = some .ok := by decide
theorem test_diag_length : (wiresAfter (.diag .lengthMismatch)).diag = none := by rfl
theorem test_diag_sanity : (wiresAfter (.diag .sanityFail)).diag = if Config.diagEn then some .sanityFail else none := by rfl

/-! ### The fixed names -/

theorem test_tableWord_xlearn : decodeTableWord 8 15 = some (.xlearn 0xF) := by rfl
theorem test_tableWord_diag : decodeTableWord 8 2 = some (.diag .preambleMismatch) := by rfl
theorem test_tableWord_fmtid : decodeTableWord 32 0 = some (.fmtid 0) := by rfl
theorem test_tableWord_sanityFail : decodeTableWord 80 0x3FFC03FFFFFFFFFFFFFC = some (.decodeSanityFail 0 0) := by rfl
theorem test_tableWord_ok : decodeTableWord 80 0x3FFC0000000000000000 = some (.decodeOk 0 0 0 0 0 0 0 0 0) := by rfl
theorem test_tableWord_preamble : decodeTableWord 80 0 = some (.decodePreambleMismatch 0 0) := by rfl
theorem test_step_runs_the_placed_word : step (State.reset.withFetchWord 8 15) = exec (.xlearn 0xF) State.reset := by rfl
/-- 10_state.md R27, the third row of the table. -/
theorem test_profile_fast : Config.profile[2].shortPulse = 197 ∧ Config.profile[2].longPulse = 393 ∧
    Config.profile[2].gapLimit = 750 ∧ Config.profile[2].resetLimit = 4500 := by decide

/-! ### Witnesses: for every statement with hypotheses, states and operands that meet them all -/

theorem witness_StepRunsTheDecodedInstruction : (withFrame v1).inputs = [.ports (present v1)] ∧
    fetch (.ports (present v1)) = some (.frame .decode v1) ∧ decode (.frame .decode v1) = decodeFrame v1 :=
  ⟨rfl, rfl, rfl⟩
theorem witness_NoPresentation_no_event : State.reset.inputs = [] := rfl
theorem witness_NoPresentation_reset : ∃ (s : State) (e : PortIn) (rest : List Stimulus), s.inputs = .ports e :: rest ∧ e.rst = true :=
  ⟨{ State.reset with inputs := [.ports { rst := true, inValid := true, frame := v1 }] }, _, _, rfl, rfl⟩
theorem witness_NoPresentation_not_valid : ∃ (s : State) (e : PortIn) (rest : List Stimulus), s.inputs = .ports e :: rest ∧ e.inValid = false :=
  ⟨{ State.reset with inputs := [.ports { rst := false, inValid := false, frame := v1 }] }, _, _, rfl, rfl⟩
theorem witness_ResetDiscardsOnlyItsOwnPresentation : ∃ (s : State) (e : PortIn) (p : Presentation) (rest : List Stimulus),
    s.inputs = .ports e :: .ports (present p) :: rest ∧ e.rst = true :=
  ⟨{ State.reset with inputs := [.ports { rst := true, inValid := true, frame := v1 }, .ports (present v1)] }, _, _, _, rfl, rfl⟩
/-- For PresentationRunsThePipeline, FrameClassesAndTheirResponses, ResponseDependsOnThePresentationAlone. -/
theorem witness_presented (p : Presentation) : (withFrame p).inputs = .ports (present p) :: [] := rfl
theorem witness_EventSequence : ∃ (es : List PortIn) (s : State), s.inputs = es.map .ports ∧ es.length = 2 :=
  ⟨[present v3, present v1], { State.reset with inputs := [.ports (present v3), .ports (present v1)] }, rfl, rfl⟩
theorem witness_StepKeepsTheInvariant : State.reset.Inv ∧ step State.reset = .next State.reset := by
  refine ⟨⟨?_, ?_, by decide⟩, rfl⟩ <;> simp [State.reset]
theorem witness_StepKeepsTheInvariant_presented : (withFrame v1).Inv ∧ ∃ t, step (withFrame v1) = .next t := by
  refine ⟨⟨?_, ?_, by decide⟩, _, rfl⟩ <;> simp [withFrame, State.reset]
theorem witness_LogGrows : ∃ t, step (withFrame v1) = .next t ∧ t.log.length = 1 := ⟨_, rfl, rfl⟩
theorem witness_TableWord : ∃ nbits w i, decodeTableWord nbits w = some i := ⟨8, 15, _, rfl⟩
theorem witness_EncodedInstruction : (Instr.decodeOk 0x12 0x34 0x56 0x78 0x9A 0xBC 0xDE 0x07 0x00).wellFormed = true := by decide
theorem witness_RequiredShape : shapeRight v1 := ⟨rfl, rfl, rfl⟩
theorem witness_class_length : ¬ shapeRight v4 := fun h => absurd h.2.1 (by decide)
theorem witness_class_preamble : shapeRight v13 ∧ ¬ preambleRight v13 :=
  ⟨⟨rfl, rfl, rfl⟩, fun h => absurd h.2 (by decide)⟩
theorem witness_class_sanity : shapeRight v3 ∧ preambleRight v3 ∧ noiseRow v3 :=
  ⟨⟨rfl, rfl, rfl⟩, ⟨by decide, by decide⟩, by unfold noiseRow; decide⟩
/-- Also for DecodedInstructionIsWellFormed (as the three before it), AcceptedFieldsHaveTheirClosedForm and LearnExactlyWhenButtonIsFifteen. -/
theorem witness_class_ok : shapeRight v1 ∧ preambleRight v1 ∧ ¬ noiseRow v1 :=
  ⟨⟨rfl, rfl, rfl⟩, ⟨by decide, by decide⟩, by unfold noiseRow; decide⟩
/-- One 0 bit away from the noise pattern (V7) is accepted. -/
theorem witness_class_ok_boundary : ¬ noiseRow (frame 0xFF 0xF0 0xFF 0xFF 0xFF 0xFF 0xFF 0xFF 0xFF 0xFE 0xC0) := by
  unfold noiseRow; decide
/-- V1 and V28 differ in padding bits only. -/
theorem witness_Padding : ∃ p q : Presentation, p ≠ q ∧ p.nrows = q.nrows ∧ p.len0 = q.len0 ∧ p.len1 = q.len1 ∧
    (∀ n : Fin 12, p.rowbit0 n = q.rowbit0 n) ∧ (∀ n : Fin 66, p.rowbit1 n = q.rowbit1 n) :=
  ⟨v1, v28, by decide, rfl, rfl, rfl, by decide, by decide⟩
theorem witness_StageProgram : (0xFF#8 : Byte) = 0xFF#8 ∧ (0xF5#8 : Byte) &&& 0xF0#8 = 0xF0#8 ∧
    (Instr.decodeOk 0x12 0x34 0x56 0x78 0x9A 0xBC 0xDE 0x07 0x00).wellFormed = true := by decide
/-- V1 and V28: different presentations with the same record. -/
theorem witness_RecordDetermines : ∃ (s t s' t' : State) (p q : Presentation) (rest rest' : List Stimulus)
    (r r' : Response) (rec : Record), p ≠ q ∧ s.inputs = .ports (present p) :: rest ∧
    t.inputs = .ports (present q) :: rest' ∧ step s = .next s' ∧ step t = .next t' ∧ s'.response = some r ∧
    t'.response = some r' ∧ r.record = some rec ∧ r'.record = some rec :=
  ⟨withFrame v1, withFrame v28, _, _, v1, v28, [], [], _, _, _, by decide, rfl, rfl, rfl, rfl, rfl, rfl, rfl,
    by decide⟩
theorem witness_AllOnes : (0xF0#8 : Byte) &&& 0xF0#8 = 0xF0#8 ∧ (0xFE#8 : Byte) ≠ 0xFF#8 := by decide
theorem witness_OutputPorts_presented : (present v1).rst = false ∧ (present v1).inValid = true := ⟨rfl, rfl⟩
theorem witness_OutputPorts_reset : ∃ e : PortIn, e.rst = true := ⟨{ present v1 with rst := true }, rfl⟩
theorem witness_OutputPorts_idle : ∃ e : PortIn, e.rst = false ∧ e.inValid = false := ⟨{ present v1 with inValid := false }, rfl, rfl⟩
theorem witness_OutputPorts_accepted : ∃ rec taps, pipeline (present v1).frame = accepted rec taps := ⟨_, _, rfl⟩
theorem witness_LengthTest : (2 = 2 ∧ 12 = 12 ∧ 66 = 66) ∧ ¬ (2 = 2 ∧ 12 = 12 ∧ 67 = 66) := by decide
theorem witness_PreambleTest : ((∀ k, k < 8 → (0xFF#8 : Byte).getLsbD k = true) ∧
    (∀ k, 4 ≤ k → k < 8 → (0xF0#8 : Byte).getLsbD k = true)) ∧
    ¬ ∀ k, 4 ≤ k → k < 8 → (0xEF#8 : Byte).getLsbD k = true := by decide
theorem witness_SanityTest : (∀ k, k < 8 → (0xFF#8 : Byte).getLsbD k = true) ∧ (0xFE#8 : Byte).getLsbD 0 = false := by decide
theorem witness_SerialAssembly : (0x5F#8 : Byte).toNat / 16 = (0x50#8 : Byte).toNat / 16 ∧ (0x5F#8 : Byte) ≠ 0x50#8 := by decide
/-- The taps clause of EmitShowsTheDecodedFrameOnTheTaps; its other clause is met by State.reset. -/
theorem witness_Emit : ∃ s : State, s.wires.encrypted = some 1 ∧ s.wires.serial = some 2 ∧ s.wires.buttonRaw = some 3 ∧
    s.wires.batteryLow = some true :=
  ⟨{ State.reset with wires := { encrypted := some 1, serial := some 2, buttonRaw := some 3, batteryLow := some true } },
    rfl, rfl, rfl, rfl⟩
theorem witness_Emit_without_fields : State.reset.wires.encrypted = none := rfl
theorem witness_StepKeepsTheTexts : (withFrame v1).TextsHex ∧ ∃ t, step (withFrame v1) = .next t := by
  refine ⟨⟨?_, ?_, by decide⟩, _, rfl⟩ <;> simp [withFrame, State.reset, Stimulus.textsHex]
/-- A record operation invoked alone on hexadecimal texts also meets the condition. -/
theorem witness_StepKeepsTheTexts_unit : ({ State.reset with inputs := [.unit (.record .emit zeroRecord)] } : State).TextsHex := by
  refine ⟨?_, ?_, by decide⟩ <;> simp [State.reset, Stimulus.textsHex]
  decide
theorem witness_EveryPortEventIsSafe : (withFrame v4).Inv ∧ (withFrame v4).TextsHex ∧ (withFrame v4).inputs = .ports (present v4) :: [] := by
  refine ⟨⟨?_, ?_, by decide⟩, ⟨?_, ?_, by decide⟩, rfl⟩ <;> simp [withFrame, State.reset, Stimulus.textsHex]
end Sys2Proof.Tests
end

section
/-! PROOFS. 00_scope.md: the required frame shape on the ports of open width (R6, decision D3). -/

namespace Sys2Proof.Proofs.Scope

open Sys2Proof.Claims

theorem fitsPorts_iff (p : Presentation) : p.fitsPorts = true ↔
    p.nrows < 2 ^ Config.nrowsW.val ∧ p.len0 < 2 ^ Config.lenW.val ∧ p.len1 < 2 ^ Config.lenW.val := by
  simp [Presentation.fitsPorts, and_assoc]

/-- NROWS_W has no value, only the minimum 2, so a row count fits when two bits hold it. -/
theorem lt_two_pow_nrowsW {n : Nat} (h : n < 2 ^ 2) : n < 2 ^ Config.nrowsW.val :=
  h.trans_le (Nat.pow_le_pow_right (by decide) Config.nrowsW.property)

/-- LEN_W has no value, only the minimum 7, so a row length fits when seven bits hold it. -/
theorem lt_two_pow_lenW {n : Nat} (h : n < 2 ^ 7) : n < 2 ^ Config.lenW.val :=
  h.trans_le (Nat.pow_le_pow_right (by decide) Config.lenW.property)

/-- Settles O17: 2 is below 2 ^ 2, and 12 and 66 are below 2 ^ 7, the least sizes the ports can have. -/
theorem requiredShapeFitsEveryPortWidth : Obligations.RequiredShapeFitsEveryPortWidth := by
  rintro p ⟨hnrows, hlen0, hlen1⟩
  rw [fitsPorts_iff, hnrows, hlen0, hlen1]
  exact ⟨lt_two_pow_nrowsW (by decide), lt_two_pow_lenW (by decide), lt_two_pow_lenW (by decide)⟩

end Sys2Proof.Proofs.Scope
end

section
/-! PROOFS. 10_state.md: the ports of an event without a presentation (R31, R32), the answer to a presented frame (R28),
and the taps (R26). -/

namespace Sys2Proof.Proofs.Ports

open Sys2Proof.Machine Sys2Proof.Claims

/-! ### Reset, and events without a presentation -/

@[simp] theorem reset_inputs : State.reset.inputs = [] := rfl
@[simp] theorem reset_wires : State.reset.wires = {} := rfl
@[simp] theorem reset_response : State.reset.response = none := rfl
@[simp] theorem reset_log : State.reset.log = [] := rfl

/-- Without a response the three valid bits are 0, whatever the ports without meaning hold (10_state.md R32). -/
theorem valid_bits_of_response_none {s : State} (h : s.response = none) (any : OutPorts) :
    (s.outPorts any).outValid = false ∧ (s.outPorts any).recValid = false ∧ (s.outPorts any).diagValid = false := by
  simp [State.outPorts, drive, h]

theorem reset_inv : State.reset.Inv := by
  refine ⟨?allowed, ?lastLogged, ?inRange⟩
  case allowed => simp
  case lastLogged => simp
  case inRange => rw [reset_wires]; decide

theorem reset_textsHex : State.reset.TextsHex := by
  simp [State.TextsHex]

/-- A port event under `rst` or without `in_valid` asks for no invocation (10_state.md R31, decision D15). -/
theorem fetch_ports_eq_none {e : PortIn} (h : e.rst = true ∨ e.inValid = false) : fetch (.ports e) = none := by
  obtain hrst | hvalid := h
  · simp [fetch, hrst]
  · simp [fetch, hvalid]

theorem nextInvocation_of_nil {s : State} (h : s.inputs = []) : nextInvocation s = none := by
  simp [nextInvocation, h]

theorem nextInvocation_of_cons {s : State} {st : Stimulus} {rest : List Stimulus} (h : s.inputs = st :: rest) :
    nextInvocation s = fetch st := by
  simp [nextInvocation, h]

/-- Settles O1: the reset state has an empty log and event list, no transient value and no response. -/
theorem resetIsSilentAndMeetsTheInvariant : Obligations.ResetIsSilentAndMeetsTheInvariant :=
  ⟨reset_inv, reset_textsHex, valid_bits_of_response_none reset_response⟩

/-- Settles O3: in each of the cases nothing is fetched, so the step is `quiet`. -/
theorem noPresentationGivesNoResponse : Obligations.NoPresentationGivesNoResponse := by
  intro s h
  have hnone : nextInvocation s = none := by
    obtain hnil | ⟨e, rest, hcons, he⟩ := h
    · exact nextInvocation_of_nil hnil
    · rw [nextInvocation_of_cons hcons, fetch_ports_eq_none he]
  exact ⟨quiet s, step_of_none hnone, rfl, valid_bits_of_response_none (quiet_response s)⟩

/-! ### A presented frame -/

theorem exec_decodeLengthMismatch (nrows len0 len1 : Nat) (s : State) :
    exec (.decodeLengthMismatch nrows len0 len1) s = .next (raise .lengthMismatch s) := rfl

theorem exec_decodePreambleMismatch (h0 h1 : Byte) (s : State) :
    exec (.decodePreambleMismatch h0 h1) s = .next (raise .preambleMismatch s) := rfl

theorem exec_decodeSanityFail (d0 d8 : Byte) (s : State) :
    exec (.decodeSanityFail d0 d8) s = .next (raise .sanityFail s) := rfl

/-- DECODE of an accepted frame overwrites the transient values before it reads them for the taps. -/
theorem exec_decodeOk (d0 d1 d2 d3 d4 d5 d6 d7 d8 : Byte) (s : State) :
    exec (.decodeOk d0 d1 d2 d3 d4 d5 d6 d7 d8) s =
      .next (respond (accepted (decodedFrame d0 d1 d2 d3 d4 d5 d6 d7 d8).record
        { encrypted := xenc d0 d1 d2 d3, serial := xser d4 d5 d6 d7, buttonRaw := xbtn d7,
          batteryLow := xbatt d8 }) s) := by
  rw [accepted, ← diagRequest_ok]; rfl

/-- DECODE by frame class gives the one response of the pseudocode of 40_decode_pipeline.md R110, from any state: the
classes of the 78-bit patterns are those of the byte tests, and each class is one of the pseudocode's four returns. -/
theorem exec_decodeFrame (p : Presentation) (s : State) : exec (decodeFrame p) s = .next (respond (pipeline p) s) := by
  unfold decodeFrame pipeline
  rw [classify_eq]
  cases lenchk p.nrows p.len0 p.len1 with
  | false => simp [exec_decodeLengthMismatch, raise]
  | true =>
    cases prechk (p.byte0 0) (p.byte0 1) with
    | false => simp [exec_decodePreambleMismatch, raise]
    | true =>
      cases sanchk (p.byte1 1) (p.byte1 2) (p.byte1 3) (p.byte1 4) (p.byte1 5) (p.byte1 6) (p.byte1 7) with
      | true => simp [exec_decodeSanityFail, raise]
      | false => exact exec_decodeOk ..

/-- One step answers a presented frame as the pseudocode says and leaves nothing else changed. -/
theorem step_of_presented {s : State} {p : Presentation} {rest : List Stimulus}
    (h : s.inputs = .ports (present p) :: rest) : step s = .next (answered s rest (pipeline p)) := by
  have hinv : nextInvocation s = some (.frame .decode p) := nextInvocation_of_cons h
  have hrest : (consume s).inputs = rest := by simp [h]
  calc step s = exec (decodeFrame p) (consume s) := step_of_some hinv
    _ = .next (respond (pipeline p) (consume s)) := exec_decodeFrame p (consume s)
    _ = .next (answered s rest (pipeline p)) := by rw [← hrest]; rfl

/-- Settles O11: both steps answer with `pipeline p`, which reads the presentation only. -/
theorem responseDependsOnThePresentationAlone : Obligations.ResponseDependsOnThePresentationAlone := by
  intro s t p rest rest' hs ht
  exact ⟨_, _, step_of_presented hs, step_of_presented ht, rfl, rfl, Option.some_ne_none _, fun _ => rfl⟩

/-! ### The taps of EMIT -/

/-- EMIT gives one accepted response whose taps are those of the transient values (45_record_builder.md R186). -/
theorem exec_emit (rec : Record) (s : State) : exec (.emit rec) s =
    .next (responded s { status := .ok, record := some rec, taps := s.wires.taps, diag := none }) := by
  rw [← diagRequest_ok]; rfl

/-- With one of the four values not formed there are no taps (log 17). -/
theorem wires_taps_eq_none {w : Wires} (h : w.encrypted = none ∨ w.serial = none ∨ w.buttonRaw = none ∨
    w.batteryLow = none) : w.taps = none := by
  by_contra hne
  obtain ⟨t, ht⟩ := Option.ne_none_iff_exists'.mp hne
  obtain ⟨he, hv, hb, hl⟩ := wires_taps_eq_some ht
  simp [he, hv, hb, hl] at h

/-- Settles O44: the taps of EMIT's response are those of the transient values, all four formed or one missing. -/
theorem emitShowsTheDecodedFrameOnTheTaps : Obligations.EmitShowsTheDecodedFrameOnTheTaps := by
  intro s rec
  constructor
  · intro e v b l he hv hb hl
    rw [exec_emit, wires_taps_of_some he hv hb hl]; rfl
  · intro hmissing
    rw [exec_emit, wires_taps_eq_none hmissing]

end Sys2Proof.Proofs.Ports
end

section
/-! PROOFS. 20_memory.md: where bytes and row bits stand on the ports (R51, R52), the ten padding bits (R56), and the
order in which a frame's lengths and content are examined (R55). -/

namespace Sys2Proof.Proofs.Memory

open Sys2Proof.Machine Sys2Proof.Claims Sys2Proof.Proofs.Ports

/-! ### Row bits and bytes -/

theorem rowbit0_eq_row0 (p : Presentation) (n : Fin 12) : p.rowbit0 n = p.row0.getLsbD (15 - n.val) := by
  rw [Presentation.rowbit0, byte0_getLsbD _ _ _ (by omega)]
  congr 1; dsimp only; omega

theorem rowbit1_eq_row1 (p : Presentation) (n : Fin 66) : p.rowbit1 n = p.row1.getLsbD (71 - n.val) := by
  rw [Presentation.rowbit1, byte1_getLsbD _ _ _ (by omega)]
  congr 1; dsimp only; omega

/-- The inverse reading of 20_memory.md R52, where the row has such a bit. -/
theorem byte0_getLsbD_eq_rowbit0 (p : Presentation) (i : Fin 2) (j : Nat) (h : 8 * i.val + 7 - j < 12) (hj : j < 8) :
    (p.byte0 i).getLsbD j = p.rowbit0 ⟨8 * i.val + 7 - j, h⟩ := by
  rw [byte0_getLsbD _ _ _ hj, rowbit0_eq_row0]
  congr 1; dsimp only; omega

theorem byte1_getLsbD_eq_rowbit1 (p : Presentation) (i : Fin 9) (j : Nat) (h : 8 * i.val + 7 - j < 66) (hj : j < 8) :
    (p.byte1 i).getLsbD j = p.rowbit1 ⟨8 * i.val + 7 - j, h⟩ := by
  rw [byte1_getLsbD _ _ _ hj, rowbit1_eq_row1]
  congr 1; dsimp only; omega

/-- Settles O16: a bit of a byte stands on the port where R51's slice puts it, and R52's bit numbers follow. -/
theorem rowBitsStandInArrivalOrder : Obligations.RowBitsStandInArrivalOrder := fun p =>
  ⟨byte0_getLsbD p, byte1_getLsbD p, rowbit0_eq_row0 p, rowbit1_eq_row1 p, byte0_getLsbD_eq_rowbit0 p,
    byte1_getLsbD_eq_rowbit1 p⟩

/-! ### Padding -/

/-- The preamble test reads the twelve row bits of row 0 and no padding (30_encoding.md R81). -/
theorem prechk_eq_true_iff_rowbit0 (p : Presentation) :
    prechk (p.byte0 0) (p.byte0 1) = true ↔ ∀ n : Fin 12, p.rowbit0 n = true := by
  simp only [prechk, Bool.and_eq_true, beq_iff_eq, byte_eq_ff, byte_high_eq_f0]
  constructor
  · rintro ⟨hbyte0, hbyte1⟩ n
    rw [rowbit0_eq_row0]
    by_cases hn : n.val < 8
    · have hbit := hbyte0 (7 - n.val) (by omega)
      rw [byte0_getLsbD _ _ _ (by omega)] at hbit
      rw [← hbit]; congr 1; simp; omega
    · have hbit := hbyte1 (15 - n.val) (by omega) (by omega)
      rw [byte0_getLsbD _ _ _ (by omega)] at hbit
      rw [← hbit]; congr 1; simp
  · intro h
    refine ⟨fun k hk => ?_, fun k h4 hk => ?_⟩
    · rw [byte0_getLsbD_eq_rowbit0 p 0 k (by simp; omega) hk, h]
    · rw [byte0_getLsbD_eq_rowbit0 p 1 k (by simp; omega) hk, h]

/-- The two flags of byte 8 are the last two row bits of row 1 (20_memory.md R58). -/
theorem xbatt_eq_rowbit1 (p : Presentation) : xbatt (p.byte1 8) = p.rowbit1 64 := rfl

theorem xrpt_eq_rowbit1 (p : Presentation) : xrpt (p.byte1 8) = p.rowbit1 65 := rfl

section
variable {p q : Presentation}

theorem prechk_eq_of_rowbit0 (h : ∀ n, p.rowbit0 n = q.rowbit0 n) :
    prechk (p.byte0 0) (p.byte0 1) = prechk (q.byte0 0) (q.byte0 1) := by
  rw [Bool.eq_iff_iff, prechk_eq_true_iff_rowbit0, prechk_eq_true_iff_rowbit0]
  simp only [h]

/-- All eight bits of bytes 0 to 7 of row 1 are row bits. -/
theorem byte1_eq_of_rowbit1 (h : ∀ n, p.rowbit1 n = q.rowbit1 n) (i : Fin 9) (hi : i.val < 8) :
    p.byte1 i = q.byte1 i := by
  apply BitVec.eq_of_getLsbD_eq
  intro j hj
  rw [byte1_getLsbD_eq_rowbit1 p i j (by omega) hj, byte1_getLsbD_eq_rowbit1 q i j (by omega) hj, h]

/-- The response reads the row count, the lengths and the row bits, and no padding (20_memory.md R56): of the two partial
bytes the preamble test reads four bits, XBATT and XRPT one each. -/
theorem pipeline_eq_of_rowbits (hnrows : p.nrows = q.nrows) (hlen0 : p.len0 = q.len0) (hlen1 : p.len1 = q.len1)
    (hrow0 : ∀ n, p.rowbit0 n = q.rowbit0 n) (hrow1 : ∀ n, p.rowbit1 n = q.rowbit1 n) : pipeline p = pipeline q := by
  have hbyte := byte1_eq_of_rowbit1 hrow1
  simp only [pipeline, hnrows, hlen0, hlen1, prechk_eq_of_rowbit0 hrow0, hbyte 0 (by decide), hbyte 1 (by decide),
    hbyte 2 (by decide), hbyte 3 (by decide), hbyte 4 (by decide), hbyte 5 (by decide), hbyte 6 (by decide),
    hbyte 7 (by decide), xbatt_eq_rowbit1, xrpt_eq_rowbit1, hrow1]

end

/-- A frame presented before the events `rest` is answered with its `pipeline`. -/
theorem step_present_cons (s : State) (rest : List Stimulus) {p : Presentation} {r : Response} (h : pipeline p = r) :
    step { s with inputs := .ports (present p) :: rest } = .next (answered s rest r) :=
  h ▸ step_of_presented rfl

/-- Settles O22: each step answers with its frame's `pipeline`, and the two are equal. -/
theorem paddingBitsDoNotMatter : Obligations.PaddingBitsDoNotMatter := by
  intro s p q rest hnrows hlen0 hlen1 hrow0 hrow1
  have hresponse := pipeline_eq_of_rowbits hnrows hlen0 hlen1 hrow0 hrow1
  exact ⟨(step_present_cons s rest hresponse).trans (step_present_cons s rest rfl).symm, _,
    step_present_cons s rest rfl⟩

/-! ### The order of inspection -/

theorem lenchk_eq_true_iff_shapeRight (p : Presentation) : lenchk p.nrows p.len0 p.len1 = true ↔ shapeRight p := by
  simp [lenchk, shapeRight, and_assoc]

theorem prechk_eq_true_iff_preambleRight (p : Presentation) :
    prechk (p.byte0 0) (p.byte0 1) = true ↔ preambleRight p := by
  simp [prechk, preambleRight]

/-- The first early exit of 40_decode_pipeline.md R110. -/
theorem pipeline_of_not_shapeRight {p : Presentation} (h : ¬ shapeRight p) :
    pipeline p = rejection .lengthMismatch none := by
  rw [← lenchk_eq_true_iff_shapeRight, Bool.not_eq_true] at h
  simp [pipeline, h, rejection]

/-- The second early exit of 40_decode_pipeline.md R110, with the request of 60_exceptions.md R209. -/
theorem pipeline_of_not_preambleRight {p : Presentation} (hs : shapeRight p) (h : ¬ preambleRight p) :
    pipeline p = rejection .preambleMismatch (if Config.diagEn then some .preambleMismatch else none) := by
  rw [← lenchk_eq_true_iff_shapeRight] at hs
  rw [← prechk_eq_true_iff_preambleRight, Bool.not_eq_true] at h
  simp [pipeline, hs, h, rejection]

/-- Settles O23: `shapeRight` does not speak of the rows nor `preambleRight` of row 1, so the other frame takes the same
early exit. -/
theorem contentIsReadInTheStatedOrder : Obligations.ContentIsReadInTheStatedOrder := by
  intro s p row0 row1 rest
  constructor
  · intro hshape
    have hother : ¬ shapeRight { p with row0 := row0, row1 := row1 } := hshape
    exact ⟨_, Classification.noConfusion, rfl, step_present_cons s rest (pipeline_of_not_shapeRight hshape),
      step_present_cons s rest (pipeline_of_not_shapeRight hother)⟩
  · intro hshape hpre
    have hshape' : shapeRight { p with row1 := row1 } := hshape
    have hpre' : ¬ preambleRight { p with row1 := row1 } := hpre
    exact ⟨_, Classification.noConfusion, rfl, step_present_cons s rest (pipeline_of_not_preambleRight hshape hpre),
      step_present_cons s rest (pipeline_of_not_preambleRight hshape' hpre')⟩

end Sys2Proof.Proofs.Memory
end

section
/-! PROOFS. 30_encoding.md: the class of a frame (R85), decode and encode, table words (R86), the closed form of
the fields (R83) and that a record determines them, the all-ones rows (R87, R88), and the record's pairs (R95). -/

namespace Sys2Proof.Proofs.Encoding

open Sys2Proof.Machine Sys2Proof.Claims Sys2Proof.Proofs.Ports Sys2Proof.Proofs.Memory

/-! ### The response of each class -/

theorem sanchk_eq_true_iff_noiseRow (p : Presentation) :
    sanchk (p.byte1 1) (p.byte1 2) (p.byte1 3) (p.byte1 4) (p.byte1 5) (p.byte1 6) (p.byte1 7) = true ↔ noiseRow p := by
  simp only [sanchk, noiseRow, Bool.and_eq_true, beq_iff_eq, and_assoc]
  constructor
  · rintro ⟨h1, h2, h3, h4, h5, h6, h7⟩ i hlo hhi
    fin_cases i
    · exact absurd hlo (by decide)
    · exact h1
    · exact h2
    · exact h3
    · exact h4
    · exact h5
    · exact h6
    · exact h7
    · exact absurd hhi (by decide)
  · intro h
    exact ⟨h 1 (by decide) (by decide), h 2 (by decide) (by decide), h 3 (by decide) (by decide),
      h 4 (by decide) (by decide), h 5 (by decide) (by decide), h 6 (by decide) (by decide), h 7 (by decide) (by decide)⟩

theorem pipeline_of_noiseRow {p : Presentation} (hshape : shapeRight p) (hpre : preambleRight p)
    (hnoise : noiseRow p) :
    pipeline p = rejection .sanityFail (if Config.diagEn then some .sanityFail else none) := by
  rw [← lenchk_eq_true_iff_shapeRight] at hshape
  rw [← prechk_eq_true_iff_preambleRight] at hpre
  rw [← sanchk_eq_true_iff_noiseRow] at hnoise
  simp [pipeline, hshape, hpre, hnoise, rejection]

/-- The DecodedFrame that stages 3 and 4 form of a frame's nine data bytes (40_decode_pipeline.md R110). -/
def dataFields (p : Presentation) : DecodedFrame :=
  decodedFrame (p.byte1 0) (p.byte1 1) (p.byte1 2) (p.byte1 3) (p.byte1 4) (p.byte1 5) (p.byte1 6) (p.byte1 7)
    (p.byte1 8)

/-- The taps that show a DecodedFrame (10_state.md R26). -/
def shownTaps (f : DecodedFrame) : Taps :=
  { encrypted := f.encrypted, serial := f.serial, buttonRaw := f.buttonRaw, batteryLow := f.batteryLow }

theorem pipeline_of_not_noiseRow {p : Presentation} (hshape : shapeRight p) (hpre : preambleRight p)
    (hnoise : ¬ noiseRow p) : pipeline p = accepted (dataFields p).record (shownTaps (dataFields p)) := by
  rw [← lenchk_eq_true_iff_shapeRight] at hshape
  rw [← prechk_eq_true_iff_preambleRight] at hpre
  rw [← sanchk_eq_true_iff_noiseRow] at hnoise
  simp only [pipeline, hshape, hpre, hnoise]
  rfl

/-- Only an accepted frame has a record, and it is that of its fields. -/
theorem record_eq_of_pipeline_record {p : Presentation} {rec : Record} (h : (pipeline p).record = some rec) :
    rec = (dataFields p).record := by
  by_cases hshape : shapeRight p
  · by_cases hpre : preambleRight p
    · by_cases hnoise : noiseRow p
      · rw [pipeline_of_noiseRow hshape hpre hnoise] at h; cases h
      · rw [pipeline_of_not_noiseRow hshape hpre hnoise] at h; exact (Option.some.inj h).symm
    · rw [pipeline_of_not_preambleRight hshape hpre] at h; cases h
  · rw [pipeline_of_not_shapeRight hshape] at h; cases h

/-- Settles O18: the response is `pipeline p`, whose four returns are the four classes. -/
theorem frameClassesAndTheirResponses : Obligations.FrameClassesAndTheirResponses := by
  intro s p rest h
  refine ⟨pipeline p, step_of_presented h, pipeline_of_not_shapeRight, pipeline_of_not_preambleRight,
    pipeline_of_noiseRow, fun hshape hpre hnoise => ?_⟩
  rw [pipeline_of_not_noiseRow hshape hpre hnoise]
  exact ⟨rfl, rfl, rfl, rfl⟩

/-! ### The class of a frame and what it decodes to -/

theorem classify_eq_pipeline_status (p : Presentation) : classify p = (pipeline p).status := by
  rw [classify_eq, pipeline]
  split_ifs <;> rfl

section
variable {p : Presentation}

theorem decodeFrame_of_not_shapeRight (hshape : ¬ shapeRight p) :
    decodeFrame p = .decodeLengthMismatch p.nrows p.len0 p.len1 := by
  rw [decodeFrame, classify_eq_pipeline_status, pipeline_of_not_shapeRight hshape]; rfl

theorem decodeFrame_of_not_preambleRight (hshape : shapeRight p) (hpre : ¬ preambleRight p) :
    decodeFrame p = .decodePreambleMismatch (p.byte0 0) (p.byte0 1) := by
  rw [decodeFrame, classify_eq_pipeline_status, pipeline_of_not_preambleRight hshape hpre]; rfl

theorem decodeFrame_of_noiseRow (hshape : shapeRight p) (hpre : preambleRight p) (hnoise : noiseRow p) :
    decodeFrame p = .decodeSanityFail (p.byte1 0) (p.byte1 8) := by
  rw [decodeFrame, classify_eq_pipeline_status, pipeline_of_noiseRow hshape hpre hnoise]; rfl

theorem decodeFrame_of_not_noiseRow (hshape : shapeRight p) (hpre : preambleRight p) (hnoise : ¬ noiseRow p) :
    decodeFrame p = .decodeOk (p.byte1 0) (p.byte1 1) (p.byte1 2) (p.byte1 3) (p.byte1 4) (p.byte1 5) (p.byte1 6)
      (p.byte1 7) (p.byte1 8) := by
  rw [decodeFrame, classify_eq_pipeline_status, pipeline_of_not_noiseRow hshape hpre hnoise]; rfl

end

/-- The class conditions of `wellFormed` are the conditions under which the class is decoded. -/
theorem decodeFrame_wellFormed (p : Presentation) : (decodeFrame p).wellFormed = true := by
  by_cases hshape : shapeRight p
  · by_cases hpre : preambleRight p
    · by_cases hnoise : noiseRow p
      · rw [decodeFrame_of_noiseRow hshape hpre hnoise]; rfl
      · rw [decodeFrame_of_not_noiseRow hshape hpre hnoise, wellFormed_decodeOk,
          Bool.eq_false_iff.mpr (mt (sanchk_eq_true_iff_noiseRow p).mp hnoise)]; rfl
    · rw [decodeFrame_of_not_preambleRight hshape hpre, wellFormed_decodePreambleMismatch,
        Bool.eq_false_iff.mpr (mt (prechk_eq_true_iff_preambleRight p).mp hpre)]; rfl
  · rw [decodeFrame_of_not_shapeRight hshape, wellFormed_decodeLengthMismatch,
      Bool.eq_false_iff.mpr (mt (lenchk_eq_true_iff_shapeRight p).mp hshape)]; rfl

/-- Only DECODE gives an instruction whose well-formedness has a condition. -/
theorem decode_wellFormed (inv : Invocation) : (decode inv).wellFormed = true := by
  cases inv with
  | frame op p =>
    cases op with
    | decode => exact decodeFrame_wellFormed p
    | lenchk | prechk | sanchk | xenc | xser | xbtn | xbatt | xrpt => rfl
  | value op w => cases op <;> rfl
  | record op r => cases op <;> rfl

/-- Settles O14: R85's conditions tell the four returns of `pipeline` apart, and `classify` is its status. -/
theorem decodedInstructionIsWellFormed : Obligations.DecodedInstructionIsWellFormed :=
  ⟨decode_wellFormed, fun _ => ⟨decodeFrame_of_not_shapeRight, decodeFrame_of_not_preambleRight,
    decodeFrame_of_noiseRow, decodeFrame_of_not_noiseRow⟩⟩

/-! ### Decoding what the encoder writes -/

theorem shapeRight_frame (h0 h1 d0 d1 d2 d3 d4 d5 d6 d7 d8 : Byte) :
    shapeRight (frame h0 h1 d0 d1 d2 d3 d4 d5 d6 d7 d8) := ⟨rfl, rfl, rfl⟩

theorem preambleRight_frame_iff (h0 h1 d0 d1 d2 d3 d4 d5 d6 d7 d8 : Byte) :
    preambleRight (frame h0 h1 d0 d1 d2 d3 d4 d5 d6 d7 d8) ↔ prechk h0 h1 = true := by
  rw [← prechk_eq_true_iff_preambleRight, byte0_frame, byte0_frame]; rfl

theorem noiseRow_frame_iff (h0 h1 d0 d1 d2 d3 d4 d5 d6 d7 d8 : Byte) :
    noiseRow (frame h0 h1 d0 d1 d2 d3 d4 d5 d6 d7 d8) ↔ sanchk d1 d2 d3 d4 d5 d6 d7 = true := by
  simp only [← sanchk_eq_true_iff_noiseRow, byte1_frame]; rfl

theorem decode_encode_decodeLengthMismatch {nrows len0 len1 : Nat} (h : lenchk nrows len0 len1 = false) :
    decode (encode (.decodeLengthMismatch nrows len0 len1)) = .decodeLengthMismatch nrows len0 len1 := by
  refine decodeFrame_of_not_shapeRight ?_
  rw [← lenchk_eq_true_iff_shapeRight, Bool.not_eq_true]
  exact h

theorem decode_encode_decodePreambleMismatch {h0 h1 : Byte} (h : prechk h0 h1 = false) :
    decode (encode (.decodePreambleMismatch h0 h1)) = .decodePreambleMismatch h0 h1 := by
  refine (decodeFrame_of_not_preambleRight (shapeRight_frame ..) ?_).trans ?_
  · rw [preambleRight_frame_iff, Bool.not_eq_true]
    exact h
  · rw [byte0_frame, byte0_frame]; rfl

theorem decode_encode_decodeSanityFail (d0 d8 : Byte) :
    decode (encode (.decodeSanityFail d0 d8)) = .decodeSanityFail d0 d8 := by
  refine (decodeFrame_of_noiseRow (shapeRight_frame ..) ?_ ?_).trans ?_
  · exact (preambleRight_frame_iff ..).mpr rfl
  · exact (noiseRow_frame_iff ..).mpr rfl
  · rw [byte1_frame, byte1_frame]; rfl

theorem decode_encode_decodeOk {d0 d1 d2 d3 d4 d5 d6 d7 d8 : Byte} (h : sanchk d1 d2 d3 d4 d5 d6 d7 = false) :
    decode (encode (.decodeOk d0 d1 d2 d3 d4 d5 d6 d7 d8)) = .decodeOk d0 d1 d2 d3 d4 d5 d6 d7 d8 := by
  refine (decodeFrame_of_not_noiseRow (shapeRight_frame ..) ?_ ?_).trans ?_
  · exact (preambleRight_frame_iff ..).mpr rfl
  · rw [noiseRow_frame_iff, Bool.not_eq_true]
    exact h
  · simp only [byte1_frame]; rfl

/-- Settles O13, by cases on the instruction: a frame class meets its own condition and not those before it, a
sub-operation on a frame reads the bytes the encoder placed, and a value or record is carried whole. -/
theorem encodedInstructionDecodesBack : Obligations.EncodedInstructionDecodesBack := by
  intro i hwf
  cases i with
  | decodeLengthMismatch nrows len0 len1 =>
    rw [wellFormed_decodeLengthMismatch, Bool.not_eq_true'] at hwf
    exact decode_encode_decodeLengthMismatch hwf
  | decodePreambleMismatch h0 h1 =>
    rw [wellFormed_decodePreambleMismatch, Bool.not_eq_true'] at hwf
    exact decode_encode_decodePreambleMismatch hwf
  | decodeSanityFail d0 d8 => exact decode_encode_decodeSanityFail d0 d8
  | decodeOk d0 d1 d2 d3 d4 d5 d6 d7 d8 =>
    rw [wellFormed_decodeOk, Bool.not_eq_true'] at hwf
    exact decode_encode_decodeOk hwf
  | prechk => simp only [encode, decode, decodeFrameOp, byte0_frame]; rfl
  | sanchk | xenc | xser | xbtn | xbatt | xrpt =>
    simp only [encode, decode, decodeFrameOp, dataFrame, byte1_frame]; rfl
  | batok b => cases b <;> rfl
  | diag c => exact congrArg Instr.diag (classificationOfCode_code c)
  | lenchk | rev8 | xlearn | btnperm | hexdig | fmtid | fmtenc | mkrec | emit => rfl

/-- Settles O15: each frame or word is a literal, on which the decoder computes. -/
theorem writtenOutWordsDecode : Obligations.WrittenOutWordsDecode :=
  ⟨rfl, rfl, rfl, rfl, rfl, rfl, rfl, rfl, rfl⟩

/-! ### Table words -/

/-- A table word that stands for an invocation puts it before the events that were to come (log 11). -/
theorem withFetchWord_of_ok {nbits w : Nat} {inv : Invocation} (h : tableInvocation nbits w = .ok inv) (s : State) :
    s.withFetchWord nbits w = { s with inputs := stimulusOf inv :: s.inputs } := by
  simp [State.withFetchWord, h]

theorem decodeTableWord_eq_some {nbits w : Nat} {i : Instr} (h : decodeTableWord nbits w = some i) :
    ∃ inv, tableInvocation nbits w = .ok inv ∧ decode inv = i := by
  unfold decodeTableWord at h
  split at h
  · exact ⟨_, ‹_›, Option.some.inj h⟩
  · cases h

/-- Settles O12: the invocation placed is the one fetched, and taking it restores the events that were to come. -/
theorem tableWordRunsAsTheNextInstruction : Obligations.TableWordRunsAsTheNextInstruction := by
  intro s nbits w i h
  obtain ⟨inv, hword, rfl⟩ := decodeTableWord_eq_some h
  rw [withFetchWord_of_ok hword]
  exact step_of_some ((nextInvocation_of_cons rfl).trans (fetch_stimulusOf inv))

/-! ### The fields of an accepted frame in row bits -/

/-- 30_encoding.md R83 for one byte: reversed byte `i` has the row bits from `8 i` on, first bit least. -/
theorem rev8_byte1_getLsbD (p : Presentation) (i : Fin 9) (k : Nat) {n : Fin 66} (hk : k < 8)
    (hn : n.val = 8 * i.val + k) : (rev8 (p.byte1 i)).getLsbD k = p.rowbit1 n := by
  rw [rev8_getLsbD _ _ hk, byte1_getLsbD_eq_rowbit1 p i (7 - k) (by omega) (by omega)]
  congr 1; ext; dsimp only; omega

/-- The mask of 43_field_extractor.md R153 keeps the high nibble, which reversed is the low one. -/
theorem rev8_and_f0_getLsbD (b : Byte) (k : Nat) (hk : k < 8) :
    (rev8 (b &&& 0xF0#8)).getLsbD k = (decide (k < 4) && (rev8 b).getLsbD k) := by
  revert b; interval_cases k <;> decide

theorem dataFields_encrypted_getLsbD (p : Presentation) (k : Nat) (h : k < 32) :
    (dataFields p).encrypted.getLsbD k = p.rowbit1 ⟨k, by omega⟩ := by
  refine (getLsbD_fourBytes _ _ _ _ k).trans ?_
  split_ifs with h0 h1 h2
  · exact rev8_byte1_getLsbD p 0 k h0 (by simp)
  · exact rev8_byte1_getLsbD p 1 (k - 8) (by omega) (by simp; omega)
  · exact rev8_byte1_getLsbD p 2 (k - 16) (by omega) (by simp; omega)
  · exact rev8_byte1_getLsbD p 3 (k - 24) (by omega) (by simp; omega)

theorem dataFields_serial_getLsbD (p : Presentation) (k : Nat) (h : k < 28) :
    (dataFields p).serial.getLsbD k = p.rowbit1 ⟨32 + k, by omega⟩ := by
  refine (getLsbD_fourBytes _ _ _ _ k).trans ?_
  split_ifs with h0 h1 h2
  · exact rev8_byte1_getLsbD p 4 k h0 (by simp)
  · exact rev8_byte1_getLsbD p 5 (k - 8) (by omega) (by simp; omega)
  · exact rev8_byte1_getLsbD p 6 (k - 16) (by omega) (by simp; omega)
  · rw [rev8_and_f0_getLsbD _ _ (by omega), decide_eq_true (by omega), Bool.true_and]
    exact rev8_byte1_getLsbD p 7 (k - 24) (by omega) (by simp; omega)

theorem dataFields_serial_getLsbD_high (p : Presentation) (k : Nat) (hlo : 28 ≤ k) (hhi : k < 32) :
    (dataFields p).serial.getLsbD k = false := by
  refine (getLsbD_fourBytes _ _ _ _ k).trans ?_
  rw [if_neg (by omega), if_neg (by omega), if_neg (by omega), rev8_and_f0_getLsbD _ _ (by omega),
    decide_eq_false (by omega), Bool.false_and]

theorem dataFields_buttonRaw_getLsbD (p : Presentation) (j : Nat) (h : j < 4) :
    (dataFields p).buttonRaw.getLsbD j = p.rowbit1 ⟨63 - j, by omega⟩ := by
  calc (dataFields p).buttonRaw.getLsbD j = (p.byte1 7).getLsbD j := by
        simp [dataFields, decodedFrame, xbtn, h]
    _ = p.rowbit1 ⟨63 - j, by omega⟩ := byte1_getLsbD_eq_rowbit1 p 7 j (by simp; omega) (by omega)

/-- BTNPERM's bits (44_button_normalizer.md R170). -/
theorem btnperm_getLsbD (n : Nibble) : (btnperm n).getLsbD 3 = n.getLsbD 3 ∧ (btnperm n).getLsbD 2 = n.getLsbD 0 ∧
    (btnperm n).getLsbD 1 = n.getLsbD 1 ∧ (btnperm n).getLsbD 0 = n.getLsbD 2 := by
  revert n; decide

theorem dataFields_buttonIndex_getLsbD (p : Presentation) :
    (dataFields p).buttonIndex.getLsbD 3 = p.rowbit1 60 ∧ (dataFields p).buttonIndex.getLsbD 2 = p.rowbit1 63 ∧
      (dataFields p).buttonIndex.getLsbD 1 = p.rowbit1 62 ∧ (dataFields p).buttonIndex.getLsbD 0 = p.rowbit1 61 := by
  obtain ⟨h3, h2, h1, h0⟩ := btnperm_getLsbD (dataFields p).buttonRaw
  exact ⟨h3.trans (dataFields_buttonRaw_getLsbD p 3 (by decide)), h2.trans (dataFields_buttonRaw_getLsbD p 0 (by decide)),
    h1.trans (dataFields_buttonRaw_getLsbD p 1 (by decide)), h0.trans (dataFields_buttonRaw_getLsbD p 2 (by decide))⟩

/-- Settles O21: the taps and the record of an accepted frame are those of its fields. -/
theorem acceptedFieldsHaveTheirClosedForm : Obligations.AcceptedFieldsHaveTheirClosedForm := by
  intro s p rest h hshape hpre hnoise
  refine ⟨(dataFields p).record, shownTaps (dataFields p), ?_, dataFields_encrypted_getLsbD p,
    dataFields_serial_getLsbD p, dataFields_serial_getLsbD_high p, dataFields_buttonRaw_getLsbD p,
    xbatt_eq_rowbit1 p, congrArg (!·) (xbatt_eq_rowbit1 p), xrpt_eq_rowbit1 p, dataFields_buttonIndex_getLsbD p⟩
  rw [← pipeline_of_not_noiseRow hshape hpre hnoise]
  exact step_of_presented h

/-! ### The record determines the row -/

/-- Digit `d` of the identifier, counted from the least, is that of the serial (45_record_builder.md R181). -/
theorem fmtid_getElem (serial : BitVec 32) (d : Nat) (hd : d < 7) :
    (fmtid serial)[6 - d] = hexdig (serial.extractLsb' (4 * d) 4) := by
  interval_cases d <;> rfl

/-- Digit `d` of the payload text, counted from the least, is that of the payload (45_record_builder.md R182). -/
theorem fmtenc_getElem (encrypted : BitVec 32) (d : Nat) (hd : d < 8) :
    (fmtenc encrypted)[7 - d] = hexdig (encrypted.extractLsb' (4 * d) 4) := by
  interval_cases d <;> rfl

section
variable {v w : BitVec 32} {k : Nat}

/-- Bit `k` of a value stands in its digit `k / 4`, and HEXDIG tells the digits apart. -/
theorem getLsbD_eq_of_hexdig
    (h : hexdig (v.extractLsb' (4 * (k / 4)) 4) = hexdig (w.extractLsb' (4 * (k / 4)) 4)) :
    v.getLsbD k = w.getLsbD k := by
  have hbit := congrArg (fun d : Nibble => d.getLsbD (k % 4)) (hexdig_injective _ _ h)
  simpa [Nat.mod_lt, Nat.div_add_mod] using hbit

theorem getLsbD_eq_of_fmtid (h : fmtid v = fmtid w) (hk : k < 28) : v.getLsbD k = w.getLsbD k := by
  apply getLsbD_eq_of_hexdig
  rw [← fmtid_getElem v (k / 4) (by omega), ← fmtid_getElem w (k / 4) (by omega)]
  simp only [h]

theorem getLsbD_eq_of_fmtenc (h : fmtenc v = fmtenc w) (hk : k < 32) : v.getLsbD k = w.getLsbD k := by
  apply getLsbD_eq_of_hexdig
  rw [← fmtenc_getElem v (k / 4) (by omega), ← fmtenc_getElem w (k / 4) (by omega)]
  simp only [h]

end

/-- Each field of the record fixes the row bits it is made of: payload text, identifier, button and the two flags. -/
theorem rowbit1_eq_of_record_eq {p q : Presentation} (h : (dataFields p).record = (dataFields q).record) (n : Fin 66) :
    p.rowbit1 n = q.rowbit1 n := by
  have hid : fmtid (dataFields p).serial = fmtid (dataFields q).serial := congrArg Record.id h
  have henc : fmtenc (dataFields p).encrypted = fmtenc (dataFields q).encrypted := congrArg Record.encrypted h
  have hbutton : (dataFields p).buttonIndex = (dataFields q).buttonIndex := congrArg Record.button h
  have hbattery : (!p.rowbit1 64) = !q.rowbit1 64 := congrArg Record.batteryOk h
  have hrepeat : p.rowbit1 65 = q.rowbit1 65 := congrArg Record.rpt h
  obtain ⟨hp60, hp63, hp62, hp61⟩ := dataFields_buttonIndex_getLsbD p
  obtain ⟨hq60, hq63, hq62, hq61⟩ := dataFields_buttonIndex_getLsbD q
  obtain ⟨n, hn⟩ := n
  by_cases hlo : n < 32
  · rw [← dataFields_encrypted_getLsbD p n hlo, ← dataFields_encrypted_getLsbD q n hlo, getLsbD_eq_of_fmtenc henc hlo]
  by_cases hmid : n < 60
  · obtain ⟨k, rfl⟩ := Nat.exists_eq_add_of_le (Nat.le_of_not_lt hlo)
    rw [← dataFields_serial_getLsbD p k (by omega), ← dataFields_serial_getLsbD q k (by omega),
      getLsbD_eq_of_fmtid hid (by omega)]
  obtain rfl | rfl | rfl | rfl | rfl | rfl : n = 60 ∨ n = 61 ∨ n = 62 ∨ n = 63 ∨ n = 64 ∨ n = 65 := by omega
  · exact hp60.symm.trans (hbutton ▸ hq60)
  · exact hp61.symm.trans (hbutton ▸ hq61)
  · exact hp62.symm.trans (hbutton ▸ hq62)
  · exact hp63.symm.trans (hbutton ▸ hq63)
  · exact Bool.not_inj hbattery
  · exact hrepeat

/-- The response of a step on a presented frame is its `pipeline`. -/
theorem response_eq_of_step {s s' : State} {p : Presentation} {rest : List Stimulus} {r : Response}
    (hin : s.inputs = .ports (present p) :: rest) (hstep : step s = .next s') (hr : s'.response = some r) :
    r = pipeline p := by
  rw [step_of_presented hin] at hstep
  cases hstep
  exact (Option.some.inj hr).symm

/-- Settles O25: both records are those of their frames' fields. -/
theorem recordDeterminesTheDataRow : Obligations.RecordDeterminesTheDataRow := by
  intro s t s' t' p q rest rest' r r' rec hs ht hstep hstep' hr hr' hrec hrec'
  rw [response_eq_of_step hs hstep hr] at hrec
  rw [response_eq_of_step ht hstep' hr'] at hrec'
  exact rowbit1_eq_of_record_eq ((record_eq_of_pipeline_record hrec).symm.trans (record_eq_of_pipeline_record hrec'))

/-! ### All-ones rows -/

/-- Settles O27: bytes 1 to 7 alone decide, and all-ones `encrypted` is bytes 0 to 3 all ones. -/
theorem allOnesTransmissionIsRejected : Obligations.AllOnesTransmissionIsRejected := by
  intro s rest h1 hh1
  have hprechk : prechk 0xFF#8 h1 = true := by simp [prechk, hh1]
  constructor
  · intro d0 d8
    refine step_present_cons s rest (pipeline_of_noiseRow (shapeRight_frame ..) ?_ ?_)
    · exact (preambleRight_frame_iff ..).mpr hprechk
    · exact (noiseRow_frame_iff ..).mpr rfl
  · intro d4 d5 d6 d7 d8 hne
    refine ⟨_, _, step_present_cons s rest (pipeline_of_not_noiseRow (shapeRight_frame ..) ?_ ?_), ?_⟩
    · exact (preambleRight_frame_iff ..).mpr hprechk
    · rw [noiseRow_frame_iff]
      simp only [sanchk, Bool.and_eq_true, beq_iff_eq]
      tauto
    · simp only [shownTaps, dataFields, decodedFrame, byte1_frame]
      exact (by decide : xenc 0xFF#8 0xFF#8 0xFF#8 0xFF#8 = 0xFFFFFFFF#32)

/-- Building a frame from its 78-bit number loses nothing of the number (30_encoding.md R86). -/
theorem frameNumber_frameOfNumber (v : BitVec 78) : (frameOfNumber v).frameNumber = v := by
  apply BitVec.eq_of_getLsbD_eq
  intro k hk
  rw [frameNumber_getLsbD _ _ hk]
  split
  · refine (BitVec.getLsbD_append (n := 66) (m := 6)).trans ?_
    simp [BitVec.getLsbD_extractLsb']; omega
  · refine (BitVec.getLsbD_append (n := 12) (m := 4)).trans ?_
    simp [BitVec.getLsbD_extractLsb', show 66 + (k - 66) = k by omega]; omega

/-- A bit of the number of a frame whose row 0 is twelve 1-bits. -/
theorem getLsbD_preamble_append (w : BitVec 66) (k : Nat) (hk : k < 78) :
    BitVec.getLsbD (w := 78) (0xFFF#12 ++ w) k = if k < 66 then w.getLsbD k else true := by
  refine (BitVec.getLsbD_append (n := 12) (m := 66)).trans ?_
  have hones : ∀ j : Fin 12, (0xFFF#12).getLsbD j = true := by decide
  split
  · rfl
  · exact hones ⟨k - 66, by omega⟩

theorem okPattern_holds_preamble_append (w : BitVec 66) : okPattern.holds (0xFFF#12 ++ w) = true := by
  rw [Pattern.holds_iff _ rfl]
  intro k hk hmask
  rw [okPattern_mask k hk, decide_eq_true_eq] at hmask
  rw [getLsbD_preamble_append w k hk, if_neg (by omega)]

/-- In a data row the noise pattern asks for bits 2 to 57, those of bytes 1 to 7. -/
theorem sanityFailPattern_holds_preamble_append_iff (w : BitVec 66) :
    sanityFailPattern.holds (0xFFF#12 ++ w) = true ↔ w.extractLsb' 2 56 = BitVec.allOnes 56 := by
  rw [Pattern.holds_iff _ rfl, BitVec.eq_of_getLsbD_eq_iff]
  constructor
  · intro h j hj
    have hbit := h (2 + j) (by omega) (by rw [sanityFailPattern_mask _ (by omega), decide_eq_true (by omega)])
    rw [getLsbD_preamble_append w _ (by omega), if_pos (by omega)] at hbit
    simpa only [BitVec.getLsbD_extractLsb', BitVec.getLsbD_allOnes, hj, decide_true, Bool.true_and] using hbit
  · intro h k hk hmask
    rw [sanityFailPattern_mask k hk, decide_eq_true_eq] at hmask
    rw [getLsbD_preamble_append w k hk]
    split
    · have hbit := h (k - 2) (by omega)
      simpa only [BitVec.getLsbD_extractLsb', BitVec.getLsbD_allOnes, show k - 2 < 56 by omega,
        show 2 + (k - 2) = k by omega, decide_true, Bool.true_and] using hbit
    · rfl

/-- After twelve 1-bits a data row is noise when bytes 1 to 7 are all ones, and OK otherwise. -/
theorem classify_preamble_append (w : BitVec 66) : classify (frameOfNumber (0xFFF#12 ++ w)) =
    if w.extractLsb' 2 56 = BitVec.allOnes 56 then .sanityFail else .ok := by
  have hshape : rightShape Config.nrowsReq Config.len0Req Config.len1Req = true := rfl
  rw [classify, frameNumber_frameOfNumber, okPattern_holds_preamble_append]
  simp [frameOfNumber, hshape, sanityFailPattern_holds_preamble_append_iff]

/-- The data row whose bytes 1 to 7 are all ones, with byte 0 and the two flag bits given. -/
def noiseDataRow (v : BitVec 8 × BitVec 2) : BitVec 66 := v.1 ++ BitVec.allOnes 56 ++ v.2

/-- What the noise pattern leaves free in a data row. -/
def freeBits (w : BitVec 66) : BitVec 8 × BitVec 2 := (w.extractLsb' 58 8, w.extractLsb' 0 2)

theorem freeBits_noiseDataRow (v : BitVec 8 × BitVec 2) : freeBits (noiseDataRow v) = v :=
  Prod.ext ((BitVec.extractLsb'_append_eq_of_le (by decide)).trans BitVec.extractLsb'_append_eq_left)
    BitVec.extractLsb'_append_eq_right

theorem noiseDataRow_bytes_one_to_seven (v : BitVec 8 × BitVec 2) :
    (noiseDataRow v).extractLsb' 2 56 = BitVec.allOnes 56 :=
  (BitVec.extractLsb'_append_eq_of_le (by decide)).trans BitVec.extractLsb'_append_eq_right

theorem noiseDataRow_freeBits {w : BitVec 66} (h : w.extractLsb' 2 56 = BitVec.allOnes 56) :
    noiseDataRow (freeBits w) = w := by
  rw [noiseDataRow, freeBits, ← h, BitVec.extractLsb'_append_extractLsb'_eq_extractLsb' (by decide)]
  exact (BitVec.extractLsb'_append_extractLsb'_eq_extractLsb' (by decide)).trans BitVec.extractLsb'_eq_self

theorem range_noiseDataRow :
    Set.range noiseDataRow = {w | classify (frameOfNumber (0xFFF#12 ++ w)) = .sanityFail} := by
  ext w
  simp only [Set.mem_range, Set.mem_ofPred_eq, classify_preamble_append]
  constructor
  · rintro ⟨v, rfl⟩
    rw [if_pos (noiseDataRow_bytes_one_to_seven v)]
  · intro h
    split at h
    · exact ⟨freeBits w, noiseDataRow_freeBits ‹_›⟩
    · cases h

/-- Settles O26: the noise rows are the range of an injection from the 2^10 values of byte 0 and the two flag bits. -/
theorem noiseRejectsExactly1024DataRows : Obligations.NoiseRejectsExactly1024DataRows := by
  constructor
  · have hinj : Function.Injective noiseDataRow := Function.LeftInverse.injective freeBits_noiseDataRow
    have hbyte : Nat.card (BitVec 8) = 2 ^ 8 := by rw [Nat.card_congr BitVec.equivFin.toEquiv, Nat.card_fin]
    have hflags : Nat.card (BitVec 2) = 2 ^ 2 := by rw [Nat.card_congr BitVec.equivFin.toEquiv, Nat.card_fin]
    rw [← range_noiseDataRow, Set.ncard_range_of_injective hinj, Nat.card_prod, hbyte, hflags]
    rfl
  · intro w
    rw [classify_preamble_append]
    split
    · exact .inl rfl
    · exact .inr rfl

/-! ### The record's pairs -/

/-- Settles O42: the record MKREC builds has its operands as fields, and `recordPairs` lists them in order. -/
theorem recordIsTheOrderedListOfSevenPairs : Obligations.RecordIsTheOrderedListOfSevenPairs :=
  fun _ idText bok btn lrn rpt encText => ⟨mkrec idText bok btn lrn rpt encText, rfl, rfl⟩

end Sys2Proof.Proofs.Encoding
end

section
/-! PROOFS. 40_decode_pipeline.md: what a step does around exec (R110, R117), that every step goes on (R113), the responses
R115 allows, events at the ports in sequence (R117), the output ports (R116), and the stage program (R111). -/

namespace Sys2Proof.Proofs.DecodePipeline

open Sys2Proof.Machine Sys2Proof.Claims Sys2Proof.Proofs.Ports Sys2Proof.Proofs.Memory Sys2Proof.Proofs.Encoding

/-! ### The responses that 40_decode_pipeline.md R115 allows -/

theorem allowed_iff (r : Response) : r.allowed = true ↔
    (r.record.isSome = true ↔ r.status = .ok) ∧ (r.taps.isSome = true → r.status = .ok) ∧
      (∀ taps, r.taps = some taps → taps.serial.extractLsb' 28 4 = 0#4) ∧ r.diag = diagRequest r.status := by
  simp only [Response.allowed, Bool.and_eq_true, Bool.or_eq_true, Bool.not_eq_true', Option.all_eq_true, beq_iff_eq,
    Bool.eq_iff_iff (b := (r.status == .ok)), and_assoc, ← Bool.not_eq_true, imp_iff_not_or]

/-- A rejection is allowed with the request of 60_exceptions.md R209. -/
theorem rejection_allowed {c : Classification} (h : c ≠ .ok) : (rejection c (diagRequest c)).allowed = true := by
  simp [allowed_iff, rejection, h]

/-- An acceptance is allowed with any record, and with taps whose serial is below 2^28. -/
theorem acceptance_allowed (rec : Record) {taps : Option Taps}
    (h : ∀ t, taps = some t → t.serial.extractLsb' 28 4 = 0#4) :
    Response.allowed { status := .ok, record := some rec, taps := taps, diag := none } = true := by
  simpa [allowed_iff] using h

theorem accepted_allowed (rec : Record) {taps : Taps} (h : taps.serial.extractLsb' 28 4 = 0#4) :
    (accepted rec taps).allowed = true :=
  acceptance_allowed rec fun _ ht => Option.some.inj ht ▸ h

/-- Bits 31:28 of XSER are the reversed low nibble of byte 7, which is masked off (43_field_extractor.md R153). -/
theorem xser_extractLsb'_high (d4 d5 d6 d7 : Byte) : (xser d4 d5 d6 d7).extractLsb' 28 4 = 0#4 := by
  apply BitVec.eq_of_getLsbD_eq
  intro k hk
  have hbit : (xser d4 d5 d6 d7).getLsbD (28 + k) = false := by
    refine (getLsbD_fourBytes _ _ _ _ _).trans ?_
    rw [if_neg (by omega), if_neg (by omega), if_neg (by omega), rev8_and_f0_getLsbD _ _ (by omega),
      decide_eq_false (by omega), Bool.false_and]
  simp [BitVec.getLsbD_extractLsb', hbit]

/-- Every return of the pseudocode of 40_decode_pipeline.md R110 is allowed. -/
theorem pipeline_allowed (p : Presentation) : (pipeline p).allowed = true := by
  by_cases hshape : shapeRight p
  · by_cases hpre : preambleRight p
    · by_cases hnoise : noiseRow p
      · rw [pipeline_of_noiseRow hshape hpre hnoise, ← diagRequest_sanityFail]
        exact rejection_allowed (by decide)
      · rw [pipeline_of_not_noiseRow hshape hpre hnoise]
        exact accepted_allowed _ (xser_extractLsb'_high ..)
    · rw [pipeline_of_not_preambleRight hshape hpre, ← diagRequest_preambleMismatch]
      exact rejection_allowed (by decide)
  · rw [pipeline_of_not_shapeRight hshape, ← diagRequest_lengthMismatch]
    exact rejection_allowed (by decide)

/-! ### Transient values in range -/

theorem inRange_iff (w : Wires) : w.inRange = true ↔
    (∀ v, w.serial = some v → v.extractLsb' 28 4 = 0#4) ∧ (∀ c, w.hexdig = some c → isHexChar c = true) ∧
      (∀ t, w.idText = some t → isHexText t = true) ∧ (∀ t, w.encText = some t → isHexText t = true) := by
  simp only [Wires.inRange, Bool.and_eq_true, Option.all_eq_true, beq_iff_eq, and_assoc]

theorem inRange_empty : Wires.inRange {} = true := by decide

section
variable {w : Wires} (hw : w.inRange = true)
include hw

theorem inRange_xser (d4 d5 d6 d7 : Byte) : Wires.inRange { w with serial := some (xser d4 d5 d6 d7) } = true := by
  rw [inRange_iff] at hw ⊢
  obtain ⟨-, htexts⟩ := hw
  exact ⟨fun v hv => Option.some.inj hv ▸ xser_extractLsb'_high .., htexts⟩

theorem inRange_hexdig (n : Nibble) : Wires.inRange { w with hexdig := some (hexdig n) } = true := by
  rw [inRange_iff] at hw ⊢
  obtain ⟨hserial, -, htexts⟩ := hw
  exact ⟨hserial, fun c hc => Option.some.inj hc ▸ isHexChar_hexdig n, htexts⟩

theorem inRange_fmtid (v : BitVec 32) : Wires.inRange { w with idText := some (fmtid v) } = true := by
  rw [inRange_iff] at hw ⊢
  obtain ⟨hserial, hdigit, -, henc⟩ := hw
  exact ⟨hserial, hdigit, fun t ht => Option.some.inj ht ▸ isHexText_fmtid v, henc⟩

theorem inRange_fmtenc (v : BitVec 32) : Wires.inRange { w with encText := some (fmtenc v) } = true := by
  rw [inRange_iff] at hw ⊢
  obtain ⟨hserial, hdigit, hid, -⟩ := hw
  exact ⟨hserial, hdigit, hid, fun t ht => Option.some.inj ht ▸ isHexText_fmtenc v⟩

/-- The taps show the serial of the transient values. -/
theorem taps_serial_of_inRange {taps : Taps} (h : w.taps = some taps) : taps.serial.extractLsb' 28 4 = 0#4 := by
  obtain ⟨-, hshown, -, -⟩ := wires_taps_eq_some h
  obtain ⟨hserial, -⟩ := (inRange_iff w).mp hw
  exact hserial _ hshown

end

/-! ### What an instruction answers -/

section
variable (s : State)

theorem exec_lenchk_of_true {nrows len0 len1 : Nat} (h : lenchk nrows len0 len1 = true) :
    exec (.lenchk nrows len0 len1) s = .next { s with wires := { s.wires with lengthOk := some true } } :=
  if_pos h

theorem exec_lenchk_of_false {nrows len0 len1 : Nat} (h : lenchk nrows len0 len1 = false) :
    exec (.lenchk nrows len0 len1) s = .next (raise .lengthMismatch s) :=
  if_neg (Bool.eq_false_iff.mp h)

theorem exec_prechk_of_true {h0 h1 : Byte} (h : prechk h0 h1 = true) :
    exec (.prechk h0 h1) s = .next { s with wires := { s.wires with preambleOk := some true } } :=
  if_pos h

theorem exec_prechk_of_false {h0 h1 : Byte} (h : prechk h0 h1 = false) :
    exec (.prechk h0 h1) s = .next (raise .preambleMismatch s) :=
  if_neg (Bool.eq_false_iff.mp h)

theorem exec_sanchk_of_true {d1 d2 d3 d4 d5 d6 d7 : Byte} (h : sanchk d1 d2 d3 d4 d5 d6 d7 = true) :
    exec (.sanchk d1 d2 d3 d4 d5 d6 d7) s = .next (raise .sanityFail s) :=
  if_pos h

theorem exec_sanchk_of_false {d1 d2 d3 d4 d5 d6 d7 : Byte} (h : sanchk d1 d2 d3 d4 d5 d6 d7 = false) :
    exec (.sanchk d1 d2 d3 d4 d5 d6 d7) s = .next { s with wires := { s.wires with noise := some false } } :=
  if_neg (Bool.eq_false_iff.mp h)

end

/-- What an instruction can make of a state: it gives one response, an allowed one if the transient values were in range,
or it writes transient values, again in range if they were. -/
inductive Effect (s : State) : State → Prop
  | responds {r : Response} (h : s.wires.inRange = true → r.allowed = true) : Effect s (respond r s)
  | writes {w : Wires} (h : s.wires.inRange = true → w.inRange = true) : Effect s { s with wires := w }

theorem raise_effect {c : Classification} (h : c ≠ .ok) (s : State) : Effect s (raise c s) :=
  .responds fun _ => rejection_allowed h

/-- Every instruction goes on, and its effect is one of the two. -/
theorem exec_goes_on (i : Instr) (s : State) : ∃ t, exec i s = .next t ∧ Effect s t := by
  cases i with
  | decodeLengthMismatch => exact ⟨_, rfl, raise_effect (by decide) s⟩
  | decodePreambleMismatch => exact ⟨_, rfl, raise_effect (by decide) s⟩
  | decodeSanityFail => exact ⟨_, rfl, raise_effect (by decide) s⟩
  | decodeOk =>
    exact ⟨_, exec_decodeOk .., .responds fun _ => accepted_allowed _ (xser_extractLsb'_high ..)⟩
  | lenchk nrows len0 len1 =>
    cases htest : lenchk nrows len0 len1 with
    | true => exact ⟨_, exec_lenchk_of_true s htest, .writes id⟩
    | false => exact ⟨_, exec_lenchk_of_false s htest, raise_effect (by decide) s⟩
  | prechk h0 h1 =>
    cases htest : prechk h0 h1 with
    | true => exact ⟨_, exec_prechk_of_true s htest, .writes id⟩
    | false => exact ⟨_, exec_prechk_of_false s htest, raise_effect (by decide) s⟩
  | sanchk d1 d2 d3 d4 d5 d6 d7 =>
    cases htest : sanchk d1 d2 d3 d4 d5 d6 d7 with
    | true => exact ⟨_, exec_sanchk_of_true s htest, raise_effect (by decide) s⟩
    | false => exact ⟨_, exec_sanchk_of_false s htest, .writes id⟩
  | xser => exact ⟨_, rfl, .writes fun hw => inRange_xser hw ..⟩
  | hexdig => exact ⟨_, rfl, .writes fun hw => inRange_hexdig hw _⟩
  | fmtid => exact ⟨_, rfl, .writes fun hw => inRange_fmtid hw _⟩
  | fmtenc => exact ⟨_, rfl, .writes fun hw => inRange_fmtenc hw _⟩
  | emit rec =>
    exact ⟨_, exec_emit rec s, .responds fun hw => acceptance_allowed rec fun _ => taps_serial_of_inRange hw⟩
  | rev8 | xenc | xbtn | xlearn | xbatt | xrpt | btnperm | batok | mkrec | diag => exact ⟨_, rfl, .writes id⟩

/-! ### One step -/

/-- What a step can do: fall silent, or have an instruction's effect on the state without the event. -/
theorem step_goes_on (s : State) : ∃ t, step s = .next t ∧ (t = quiet s ∨ Effect (consume s) t) := by
  cases h : nextInvocation s with
  | none => exact ⟨_, step_of_none h, .inl rfl⟩
  | some inv =>
    obtain ⟨t, hexec, heffect⟩ := exec_goes_on (decode inv) (consume s)
    exact ⟨t, (step_of_some h).trans hexec, .inr heffect⟩

theorem effect_of_step {s t : State} (h : step s = .next t) : t = quiet s ∨ Effect (consume s) t := by
  obtain ⟨t', hstep, heffect⟩ := step_goes_on s
  rw [h] at hstep
  cases hstep
  exact heffect

/-- Settles O2: the event is the head of the list, and `consume` takes it and clears the response. -/
theorem stepRunsTheDecodedInstruction : Obligations.StepRunsTheDecodedInstruction := by
  intro s st rest inv hin hfetch
  have hconsume : consume s = { inputs := rest, wires := s.wires, response := none, log := s.log } := by
    simp [consume, hin]
  rw [← hconsume]
  exact step_of_some ((nextInvocation_of_cons hin).trans hfetch)

/-- Settles O7: a step is `quiet` or runs an instruction, and every instruction goes on. -/
theorem everyStepGoesOn : Obligations.EveryStepGoesOn := by
  intro s
  obtain ⟨t, hstep, -⟩ := step_goes_on s
  exact ⟨t, hstep⟩

/-- Settles O10: silence and a write of transient values leave the log, a response is added to it. -/
theorem logGrowsByTheResponseGiven : Obligations.LogGrowsByTheResponseGiven := by
  intro s t h
  obtain rfl | heffect := effect_of_step h
  · exact ⟨rfl, .inl ⟨rfl, rfl⟩⟩
  · cases heffect with
    | responds => exact ⟨rfl, .inr ⟨_, rfl, rfl, rfl⟩⟩
    | writes => exact ⟨rfl, .inl ⟨rfl, rfl⟩⟩

/-- Settles O5: the model's step on a presented frame is the pseudocode's response. -/
theorem presentationRunsThePipeline : Obligations.PresentationRunsThePipeline :=
  fun _ _ _ => step_of_presented

/-! ### The invariant -/

/-- Without a response on the ports the invariant is about the log and the transient values only. -/
theorem inv_of_response_none {s : State} (hlog : ∀ r ∈ s.log, r.allowed = true) (hresponse : s.response = none)
    (hrange : s.wires.inRange = true) : s.Inv :=
  ⟨hlog, by simp [hresponse], hrange⟩

theorem respond_inv {r : Response} {s : State} (hlog : ∀ r ∈ s.log, r.allowed = true) (hr : r.allowed = true) :
    (respond r s).Inv := by
  refine ⟨?allowed, ?lastLogged, inRange_empty⟩
  case allowed =>
    simp only [respond_log, List.mem_append, List.mem_singleton]
    rintro r' (hold | rfl)
    · exact hlog r' hold
    · exact hr
  case lastLogged => simp

/-- Settles O8: a step falls silent, logs a response that is allowed because the transient values were in range, or
writes transient values in range. -/
theorem stepKeepsTheInvariant : Obligations.StepKeepsTheInvariant := by
  rintro s t ⟨hlog, -, hrange⟩ hstep
  obtain rfl | heffect := effect_of_step hstep
  · exact inv_of_response_none hlog rfl inRange_empty
  · cases heffect with
    | responds hallowed => exact respond_inv hlog (hallowed hrange)
    | writes hwritten => exact inv_of_response_none hlog rfl (hwritten hrange)

/-! ### Events at the ports -/

theorem portResponse_eq_none {e : PortIn} (h : e.rst = true ∨ e.inValid = false) : portResponse e = none := by
  obtain hrst | hvalid := h
  · simp [portResponse, hrst]
  · simp [portResponse, hvalid]

theorem eq_pipeline_of_portResponse {e : PortIn} {r : Response} (h : portResponse e = some r) : r = pipeline e.frame := by
  unfold portResponse at h
  split at h
  · cases h
  · exact (Option.some.inj h).symm

theorem eq_present {e : PortIn} (hrst : e.rst = false) (hvalid : e.inValid = true) : e = present e.frame := by
  rw [present, ← hrst, ← hvalid]

/-- The state after an event at the ports: the event is taken, nothing transient is left, and its response, if any, stands
on the ports and is logged once (40_decode_pipeline.md R117). -/
def afterPorts (s : State) (e : PortIn) (rest : List Stimulus) : State :=
  { inputs := rest, wires := {}, response := portResponse e, log := s.log ++ (portResponse e).toList }

theorem step_of_ports {s : State} {e : PortIn} {rest : List Stimulus} (h : s.inputs = .ports e :: rest) :
    step s = .next (afterPorts s e rest) := by
  by_cases hsilent : e.rst = true ∨ e.inValid = false
  · have hquiet : quiet s = afterPorts s e rest := by
      simp [quiet, consume, afterPorts, h, portResponse_eq_none hsilent]
    rw [← hquiet]
    exact step_of_none ((nextInvocation_of_cons h).trans (fetch_ports_eq_none hsilent))
  · simp only [not_or, Bool.not_eq_true, Bool.not_eq_false] at hsilent
    obtain ⟨hrst, hvalid⟩ := hsilent
    rw [eq_present hrst hvalid] at h ⊢
    exact step_of_presented h

/-- The texts of a record built from a DecodedFrame are FMTID's and FMTENC's (45_record_builder.md R181, R182). -/
theorem decodedFrame_record_isHex (f : DecodedFrame) : f.record.isHex = true := by
  simp [DecodedFrame.record, mkrec, Record.isHex, isHexText_fmtid, isHexText_fmtenc]

theorem pipeline_record_isHex (p : Presentation) : (pipeline p).record.all (·.isHex) = true := by
  rw [Option.all_eq_true]
  intro rec hrec
  rw [record_eq_of_pipeline_record hrec]
  exact decodedFrame_record_isHex _

theorem afterPorts_textsHex {s : State} {e : PortIn} {rest : List Stimulus} (hs : s.TextsHex)
    (hin : s.inputs = .ports e :: rest) : (afterPorts s e rest).TextsHex := by
  obtain ⟨hinputs, hlog, -⟩ := hs
  refine ⟨fun st hst => hinputs st (hin ▸ List.mem_cons_of_mem _ hst), ?log, rfl⟩
  case log =>
    simp only [afterPorts, List.mem_append, Option.mem_toList]
    rintro r (hold | hnew)
    · exact hlog r hold
    · rw [eq_pipeline_of_portResponse hnew]
      exact pipeline_record_isHex e.frame

/-- Settles O9: the step goes on, keeps the invariant as every step does, and logs at most a record that DECODE built. -/
theorem everyPortEventIsSafe : Obligations.EveryPortEventIsSafe := by
  intro s e rest hinv htexts hin
  have hstep := step_of_ports hin
  exact ⟨_, hstep, stepKeepsTheInvariant s _ hinv hstep, afterPorts_textsHex htexts hin⟩

theorem emissionLog_cons (e : PortIn) (es : List PortIn) :
    emissionLog (e :: es) = (portResponse e).toList ++ emissionLog es := by
  cases h : portResponse e <;> simp [emissionLog, h]

theorem run_succ_of_step {s t : State} (h : step s = .next t) (k : Nat) :
    Sys2Proof.core.run (k + 1) s = Sys2Proof.core.run k t := by
  have hcore : Sys2Proof.core.step s = .next t := h
  simp only [Host.Core.run, hcore]

/-- One step per event takes all events and logs their responses in order (40_decode_pipeline.md R117). -/
theorem run_of_ports (es : List PortIn) (s : State) (h : s.inputs = es.map .ports) :
    ∃ t : State, Sys2Proof.core.run es.length s = .next t ∧ t.inputs = [] ∧ t.log = s.log ++ emissionLog es := by
  induction es generalizing s with
  | nil => exact ⟨s, rfl, h, (List.append_nil _).symm⟩
  | cons e es ih =>
    obtain ⟨t, hrun, hinputs, hlog⟩ := ih (afterPorts s e (es.map .ports)) rfl
    refine ⟨t, (run_succ_of_step (step_of_ports h) _).trans hrun, hinputs, ?_⟩
    rw [hlog, emissionLog_cons, ← List.append_assoc]
    rfl

/-- Settles O6: records and diagnostic requests are read from the log, which grew by the emission log. -/
theorem eventSequenceGivesItsEmissionLog : Obligations.EventSequenceGivesItsEmissionLog := by
  intro es s h
  obtain ⟨t, hrun, hinputs, hlog⟩ := run_of_ports es s h
  refine ⟨t, hrun, hinputs, hlog, ?records, ?diagnostics⟩
  case records => rw [State.records, hlog, List.filterMap_append, State.records]
  case diagnostics => rw [State.diagnostics, hlog, List.filterMap_append, State.diagnostics]

/-! ### The stage program -/

theorem execAll_cons_of_exec {i : Instr} {s t : State} (h : exec i s = .next t) (is : List Instr) :
    execAll (i :: is) s = execAll is t := by
  rw [execAll, h]

/-- Settles O24: the three tests of an accepted frame fall through, the ten operations after them form the transient values
DECODE forms, and EMIT shows the same four on the taps and discards all. -/
theorem stageProgramEqualsDecode : Obligations.StageProgramEqualsDecode := by
  intro s h0 h1 d0 d1 d2 d3 d4 d5 d6 d7 d8 hh0 hh1 hwf
  have hlenchk : lenchk 2 12 66 = true := rfl
  have hprechk : prechk h0 h1 = true := by simp [prechk, hh0, hh1]
  have hsanchk : sanchk d1 d2 d3 d4 d5 d6 d7 = false := by
    rwa [wellFormed_decodeOk, Bool.not_eq_true'] at hwf
  have heq : execAll (stageProgram h0 h1 d0 d1 d2 d3 d4 d5 d6 d7 d8) s =
      exec (.decodeOk d0 d1 d2 d3 d4 d5 d6 d7 d8) s := by
    rw [stageProgram, execAll_cons_of_exec (exec_lenchk_of_true _ hlenchk),
      execAll_cons_of_exec (exec_prechk_of_true _ hprechk), execAll_cons_of_exec (exec_sanchk_of_false _ hsanchk)]
    rfl
  exact ⟨heq, _, heq.trans (exec_decodeOk ..)⟩

/-! ### The output ports -/

/-- A text port takes its next character: those before it move up one byte (10_state.md R26). -/
def pushByte {w : Nat} (acc : BitVec w) (c : Byte) : BitVec w := acc <<< 8 ||| c.setWidth w

section
variable {w : Nat} (acc : BitVec w) (c : Byte)

theorem pushByte_extractLsb'_zero (h : 8 ≤ w) : (pushByte acc c).extractLsb' 0 8 = c := by
  apply BitVec.eq_of_getLsbD_eq
  intro k hk
  simp [pushByte, hk, show k < w by omega]

theorem pushByte_extractLsb'_add (m : Nat) (h : m + 16 ≤ w) :
    (pushByte acc c).extractLsb' (m + 8) 8 = acc.extractLsb' m 8 := by
  apply BitVec.eq_of_getLsbD_eq
  intro k hk
  have hport : m + 8 + k < w := by omega
  have habove : ¬ m + 8 + k < 8 := by omega
  have hmoved : m + 8 + k - 8 = m + k := by omega
  have hbeyond : c.getLsbD (m + 8 + k) = false := BitVec.getLsbD_of_ge c _ (by omega)
  simp [-BitVec.getLsbD_eq_getElem, pushByte, BitVec.getLsbD_extractLsb', hport, habove, hmoved, hbeyond]

end

/-- Each character pushed stands one byte lower than the one before it. -/
theorem foldl_pushByte_extractLsb' {w : Nat} (cs : List Byte) (hw : 8 * cs.length ≤ w) (i : Nat) (hi : i < cs.length) :
    (cs.foldl pushByte (0#w)).extractLsb' (8 * (cs.length - 1 - i)) 8 = cs[i] := by
  induction cs using List.reverseRecOn with
  | nil => cases hi
  | append_singleton cs c ih =>
    rw [List.length_append, List.length_singleton] at hw hi
    rw [List.foldl_append, List.foldl_cons, List.foldl_nil]
    obtain hlt | rfl := Nat.lt_succ_iff_lt_or_eq.mp hi
    · have hpos : 8 * ((cs ++ [c]).length - 1 - i) = 8 * (cs.length - 1 - i) + 8 := by simp; omega
      rw [hpos, pushByte_extractLsb'_add _ _ _ (by omega), ih (by omega) hlt, List.getElem_append_left hlt]
    · have hpos : 8 * ((cs ++ [c]).length - 1 - cs.length) = 0 := by simp
      rw [hpos, pushByte_extractLsb'_zero _ _ (by omega), List.getElem_concat_length rfl]

/-- A text port has its first character in the most significant byte (10_state.md R26, decision D10). -/
theorem packText_extractLsb' {n w : Nat} (t : Text n) (hw : 8 * n ≤ w) (i : Fin n) :
    (packText w t).extractLsb' (8 * (n - 1 - i.val)) 8 = t[i] := by
  have hpack : packText w t = t.toList.foldl pushByte 0#w := rfl
  have hbyte := foldl_pushByte_extractLsb' (w := w) t.toList (by simpa using hw) i.val (by simp)
  rw [hpack]
  simpa using hbyte

section
variable (any : OutPorts) (r : Response)

/-- What the ports without data show of a response. -/
theorem drive_some : (drive any (some r)).outValid = true ∧ (drive any (some r)).outStatus = r.status.code ∧
    (drive any (some r)).recValid = r.record.isSome ∧ (drive any (some r)).diagValid = r.diag.isSome := by
  obtain ⟨status, _ | rec, _ | taps, _ | c⟩ := r <;> exact ⟨rfl, rfl, rfl, rfl⟩

theorem drive_diagCode {c : Classification} (h : r.diag = some c) : (drive any (some r)).diagCode = c.code := by
  simp [drive, h, driveDiag]

end

theorem code_eq_zero_iff (c : Classification) : c.code = 0#2 ↔ c = .ok := by
  cases c <;> decide

theorem code_eq_two_or_three_iff (c : Classification) :
    c.code = 2#2 ∨ c.code = 3#2 ↔ c = .preambleMismatch ∨ c = .sanityFail := by
  cases c <;> decide

theorem isSome_diagRequest_iff (c : Classification) : (diagRequest c).isSome = true ↔
    Config.diagEn = true ∧ (c = .preambleMismatch ∨ c = .sanityFail) := by
  cases c <;> simp

/-- The valid bits, the status and the request of an allowed response, by its code (60_exceptions.md R201, R209). -/
theorem drive_of_allowed (any : OutPorts) {r : Response} (h : r.allowed = true) :
    (drive any (some r)).outValid = true ∧ (drive any (some r)).outStatus = r.status.code ∧
      ((drive any (some r)).recValid = true ↔ (drive any (some r)).outStatus = 0#2) ∧
      ((drive any (some r)).diagValid = true ↔ Config.diagEn = true ∧
        ((drive any (some r)).outStatus = 2#2 ∨ (drive any (some r)).outStatus = 3#2)) ∧
      ((drive any (some r)).diagValid = true → (drive any (some r)).diagCode = (drive any (some r)).outStatus) := by
  obtain ⟨hrecord, -, -, hdiag⟩ := (allowed_iff r).mp h
  obtain ⟨hvalid, hstatus, hrec, hreq⟩ := drive_some any r
  refine ⟨hvalid, hstatus, ?recValid, ?diagValid, ?diagCode⟩
  case recValid => rw [hrec, hstatus, hrecord, code_eq_zero_iff]
  case diagValid => rw [hreq, hstatus, hdiag, isSome_diagRequest_iff, code_eq_two_or_three_iff]
  case diagCode =>
    rw [hreq, hstatus]
    intro hsome
    obtain ⟨c, hc⟩ := Option.isSome_iff_exists.mp hsome
    obtain ⟨rfl, -⟩ := diagRequest_eq_some (hdiag.symm.trans hc)
    exact drive_diagCode any r hc

/-- Settles O29: the ports are driven by `portResponse`, which is none or the `pipeline` of the frame, an allowed response;
the ports of an accepted frame are its fields, the texts packed. -/
theorem outputPortsCarryTheResponse : Obligations.OutputPortsCarryTheResponse := by
  refine ⟨⟨rfl, rfl, rfl, rfl⟩, fun s e rest any hin => ⟨afterPorts s e rest, step_of_ports hin, fun hsilent => ?_,
    fun hrst hvalid => ?_⟩⟩
  · exact valid_bits_of_response_none (portResponse_eq_none hsilent) any
  · have hports : (afterPorts s e rest).outPorts any = drive any (some (pipeline e.frame)) := by
      rw [eq_present hrst hvalid]; rfl
    obtain ⟨hout, hstatus, hrec, hdiag, hcode⟩ := drive_of_allowed any (pipeline_allowed e.frame)
    rw [hports]
    refine ⟨hout, hstatus, hrec, hdiag, hcode, fun rec taps haccepted => ?_⟩
    rw [haccepted]
    refine ⟨rfl, fun i => ?id, fun i => ?encrypted, rfl, rfl, rfl, rfl, rfl, rfl, rfl, rfl⟩
    case id =>
      rw [show 48 - 8 * i.val = 8 * (7 - 1 - i.val) by omega]
      exact packText_extractLsb' rec.id (by decide) i
    case encrypted =>
      rw [show 56 - 8 * i.val = 8 * (8 - 1 - i.val) by omega]
      exact packText_extractLsb' rec.encrypted (by decide) i

end Sys2Proof.Proofs.DecodePipeline
end

section
/-! PROOFS. 41_frame_shape_validator.md: LENCHK and PRECHK invoked alone, by their operands and as the raise that ends a
failed test (R130, R131, R132). -/

namespace Sys2Proof.Proofs.FrameShapeValidator

open Sys2Proof.Machine Sys2Proof.Claims Sys2Proof.Proofs.DecodePipeline

/-- The operand of a raise is the whole of its response, but for the request of 60_exceptions.md R209. -/
theorem raise_eq_responded_rejection (c : Classification) (s : State) :
    raise c s = responded s (rejection c (diagRequest c)) := rfl

theorem lenchk_eq_true_iff (nrows len0 len1 : Nat) :
    lenchk nrows len0 len1 = true ↔ nrows = 2 ∧ len0 = 12 ∧ len1 = 66 := by
  simp [lenchk, and_assoc]

/-- The mask keeps the high nibble of `h1`: twelve bits are tested, and the padding is not. -/
theorem prechk_eq_true_iff (h0 h1 : Byte) : prechk h0 h1 = true ↔
    (∀ k, k < 8 → h0.getLsbD k = true) ∧ (∀ k, 4 ≤ k → k < 8 → h1.getLsbD k = true) := by
  rw [← byte_eq_ff, ← byte_high_eq_f0, prechk, Bool.and_eq_true, beq_iff_eq, beq_iff_eq]

/-- Settles O30: LENCHK is the equality of its operands to 2, 12 and 66, and LENGTH_MISMATCH has no diagnostic request. -/
theorem lengthTestDecidesByEquality : Obligations.LengthTestDecidesByEquality := by
  intro s nrows len0 len1
  rw [← lenchk_eq_true_iff, Bool.not_eq_true]
  constructor
  · exact exec_lenchk_of_true s
  · intro hwrong
    rw [exec_lenchk_of_false s hwrong, raise_eq_responded_rejection, diagRequest_lengthMismatch]

/-- Settles O31: PRECHK is the test of the twelve bits of row 0, and DIAG_EN gates the request of PREAMBLE_MISMATCH. -/
theorem preambleTestReadsTwelveBits : Obligations.PreambleTestReadsTwelveBits := by
  intro s h0 h1
  rw [← prechk_eq_true_iff, Bool.not_eq_true]
  constructor
  · exact exec_prechk_of_true s
  · intro hwrong
    rw [exec_prechk_of_false s hwrong, raise_eq_responded_rejection, diagRequest_preambleMismatch]

end Sys2Proof.Proofs.FrameShapeValidator
end

section
/-! PROOFS. 42_sanity_filter.md: SANCHK invoked alone, by the bits of its seven operands and as the raise that ends a
frame of noise (R140, R141). -/

namespace Sys2Proof.Proofs.SanityFilter

open Sys2Proof.Machine Sys2Proof.Claims Sys2Proof.Proofs.DecodePipeline Sys2Proof.Proofs.FrameShapeValidator

section
variable (d1 d2 d3 d4 d5 d6 d7 : Byte)

/-- The seven equalities of SANCHK, read as one statement over the position of the byte. -/
theorem sanchk_eq_true_iff_bytes : sanchk d1 d2 d3 d4 d5 d6 d7 = true ↔
    ∀ i : Fin 7, #v[d1, d2, d3, d4, d5, d6, d7][i] = 0xFF#8 := by
  simp [sanchk, Fin.forall_fin_succ, and_assoc]

theorem sanchk_eq_true_iff : sanchk d1 d2 d3 d4 d5 d6 d7 = true ↔
    ∀ (i : Fin 7) (k : Nat), k < 8 → (#v[d1, d2, d3, d4, d5, d6, d7][i]).getLsbD k = true := by
  simp only [sanchk_eq_true_iff_bytes, byte_eq_ff]

/-- One 0 bit anywhere in the seven bytes makes the frame no noise. -/
theorem sanchk_eq_false_iff : sanchk d1 d2 d3 d4 d5 d6 d7 = false ↔
    ∃ (i : Fin 7) (k : Nat), k < 8 ∧ (#v[d1, d2, d3, d4, d5, d6, d7][i]).getLsbD k = false := by
  rw [← Bool.not_eq_true, sanchk_eq_true_iff]
  simp only [not_forall, exists_prop, Bool.not_eq_true]

end

/-- Settles O32: SANCHK is the test of all the bits of its seven bytes, and DIAG_EN gates the request of SANITY_FAIL. -/
theorem sanityTestNeedsAllSevenBytes : Obligations.SanityTestNeedsAllSevenBytes := by
  intro s d1 d2 d3 d4 d5 d6 d7
  rw [← sanchk_eq_true_iff, ← sanchk_eq_false_iff]
  constructor
  · intro hnoise
    rw [exec_sanchk_of_true s hnoise, raise_eq_responded_rejection, diagRequest_sanityFail]
  · exact exec_sanchk_of_false s

end Sys2Proof.Proofs.SanityFilter
end

section
/-! PROOFS. 43_field_extractor.md: the operations of stage 3 invoked alone (R150, R152 to R157) with the inverted battery
flag of 45_record_builder.md R183, and an accepted frame by its byte lanes (R151) and its learn flag (R155). -/

namespace Sys2Proof.Proofs.FieldExtractor

open Sys2Proof.Machine Sys2Proof.Claims Sys2Proof.Proofs.Ports Sys2Proof.Proofs.Encoding Sys2Proof.Proofs.DecodePipeline

/-! ### Bytes and bits -/

/-- Bit `k` of a value is set when the part up to bit `k` reaches its weight. -/
theorem getLsbD_eq_decide_le {w : Nat} (v : BitVec w) (k : Nat) :
    v.getLsbD k = decide (2 ^ k ≤ v.toNat % 2 ^ (k + 1)) := by
  have hlow : v.toNat % 2 ^ k < 2 ^ k := Nat.mod_lt _ (Nat.two_pow_pos k)
  have hsplit : v.toNat % 2 ^ (k + 1) = v.toNat % 2 ^ k + 2 ^ k * (v.toNat / 2 ^ k % 2) := Nat.mod_pow_succ
  rw [BitVec.getLsbD, Nat.testBit_eq_decide_div_mod_eq, hsplit, decide_eq_decide]
  obtain hbit | hbit := Nat.mod_two_eq_zero_or_one (v.toNat / 2 ^ k)
  · simp [hbit, hlow]
  · simp [hbit]

/-- 43_field_extractor.md R150: "reversing a byte's bits twice yields the original byte". -/
theorem rev8_rev8 (b : Byte) : rev8 (rev8 b) = b := by
  apply BitVec.eq_of_getLsbD_eq
  intro k hk
  rw [rev8_getLsbD _ k hk, rev8_getLsbD _ (7 - k) (by omega), show 7 - (7 - k) = k by omega]

/-- The mask of 43_field_extractor.md R153 keeps nothing but the high nibble. -/
theorem and_f0_eq_of_div_eq {b c : Byte} (h : b.toNat / 16 = c.toNat / 16) : b &&& 0xF0#8 = c &&& 0xF0#8 := by
  have hmask : ∀ x : Byte, x &&& 0xF0#8 = BitVec.ofNat 8 (x.toNat / 16 * 16) := by decide
  rw [hmask, hmask, h]

/-- Lane `i` of four concatenated bytes is the byte `i` places before the last (43_field_extractor.md R151). -/
theorem getLsbD_fourBytes_lane (a b c d : Byte) (i : Fin 4) {k : Nat} (hk : k < 8) :
    BitVec.getLsbD (w := 32) (a ++ b ++ c ++ d) (8 * i.val + k) = (#v[d, c, b, a][i]).getLsbD k := by
  rw [getLsbD_fourBytes]
  fin_cases i
  · simp [hk]
  · simp [show 8 + k < 16 by omega]
  · simp [show ¬ 16 + k < 8 by omega, show 16 + k < 24 by omega]
  · simp [show ¬ 24 + k < 8 by omega, show ¬ 24 + k < 16 by omega]

/-! ### The fields and flags of stage 3 -/

theorem xenc_getLsbD (d0 d1 d2 d3 : Byte) (i : Fin 4) (k : Nat) (hk : k < 8) :
    (xenc d0 d1 d2 d3).getLsbD (8 * i.val + k) = (#v[d0, d1, d2, d3][i]).getLsbD (7 - k) := by
  rw [← rev8_getLsbD _ _ hk]
  refine (getLsbD_fourBytes_lane _ _ _ _ i hk).trans ?_
  fin_cases i <;> rfl

theorem xser_getLsbD (d4 d5 d6 d7 : Byte) (i : Fin 3) (k : Nat) (hk : k < 8) :
    (xser d4 d5 d6 d7).getLsbD (8 * i.val + k) = (#v[d4, d5, d6][i]).getLsbD (7 - k) := by
  rw [← rev8_getLsbD _ _ hk]
  refine (getLsbD_fourBytes_lane _ _ _ _ i.castSucc hk).trans ?_
  fin_cases i <;> rfl

/-- The last lane of the serial holds the high nibble of byte 7 reversed, under four 0 bits. -/
theorem xser_getLsbD_last (d4 d5 d6 d7 : Byte) (k : Nat) (hk : k < 8) :
    (xser d4 d5 d6 d7).getLsbD (24 + k) = (decide (k < 4) && d7.getLsbD (7 - k)) := by
  rw [← rev8_getLsbD d7 k hk, ← rev8_and_f0_getLsbD d7 k hk]
  exact getLsbD_fourBytes_lane _ _ _ _ (Fin.last 3) hk

theorem xser_toNat_lt (d4 d5 d6 d7 : Byte) : (xser d4 d5 d6 d7).toNat < 2 ^ 28 := by
  have hhigh : (xser d4 d5 d6 d7).toNat / 2 ^ 28 % 16 = 0 := by
    simpa [BitVec.extractLsb'_toNat, Nat.shiftRight_eq_div_pow] using
      congrArg BitVec.toNat (xser_extractLsb'_high d4 d5 d6 d7)
  omega

theorem xser_eq_of_high_nibble_eq (d4 d5 d6 : Byte) {d7 d7' : Byte} (h : d7'.toNat / 16 = d7.toNat / 16) :
    xser d4 d5 d6 d7' = xser d4 d5 d6 d7 := by
  rw [xser, xser, and_f0_eq_of_div_eq h]

theorem xbtn_toNat (d7 : Byte) : (xbtn d7).toNat = d7.toNat % 16 := by
  simp [xbtn, BitVec.extractLsb'_toNat]

theorem xbtn_getLsbD (d7 : Byte) (k : Nat) (hk : k < 4) : (xbtn d7).getLsbD k = d7.getLsbD k := by
  simp [xbtn, hk]

theorem xlearn_eq_decide (n : Nibble) : xlearn n = decide (n.toNat = 15) := by
  rw [xlearn, Bool.beq_eq_decide_eq, decide_eq_decide, ← BitVec.toNat_inj]; rfl

theorem xbatt_eq_decide (d8 : Byte) : xbatt d8 = decide (128 ≤ d8.toNat) := by
  rw [xbatt, getLsbD_eq_decide_le, Nat.mod_eq_of_lt d8.isLt]; rfl

theorem xrpt_eq_decide (d8 : Byte) : xrpt d8 = decide (64 ≤ d8.toNat % 128) :=
  getLsbD_eq_decide_le d8 6

/-- BTNPERM gives 0xF exactly for 0xF (44_button_normalizer.md R171). -/
theorem btnperm_toNat_eq_fifteen_iff : ∀ n : Nibble, (btnperm n).toNat = 15 ↔ n.toNat = 15 := by decide

/-! ### The stage's operations alone -/

section
variable (s : State)

theorem exec_rev8 (b : Byte) : exec (.rev8 b) s =
    .next { s with wires := { s.wires with rev8 := some (rev8 b) } } := rfl

theorem exec_xser (d4 d5 d6 d7 : Byte) : exec (.xser d4 d5 d6 d7) s =
    .next { s with wires := { s.wires with serial := some (xser d4 d5 d6 d7) } } := rfl

theorem exec_xlearn (n : Nibble) : exec (.xlearn n) s =
    .next { s with wires := { s.wires with learn := some (xlearn n) } } := rfl

theorem exec_xbatt (d8 : Byte) : exec (.xbatt d8) s =
    .next { s with wires := { s.wires with batteryLow := some (xbatt d8) } } := rfl

theorem exec_xrpt (d8 : Byte) : exec (.xrpt d8) s =
    .next { s with wires := { s.wires with rpt := some (xrpt d8) } } := rfl

end

/-- Settles O33: the value is `rev8 b`, which `rev8` takes back to `b`. -/
theorem byteReversalReversesAndUndoesItself : Obligations.ByteReversalReversesAndUndoesItself := by
  intro s b
  refine ⟨rev8 b, exec_rev8 s b, rev8_getLsbD b, ?undone⟩
  case undone => rw [exec_rev8, rev8_rev8]

/-- Settles O34: the value is `xenc`, lane by lane. -/
theorem encryptedFieldAssembly : Obligations.EncryptedFieldAssembly :=
  fun _ d0 d1 d2 d3 => ⟨xenc d0 d1 d2 d3, rfl, xenc_getLsbD d0 d1 d2 d3⟩

/-- Settles O35: the value is `xser`; its last lane and its independence of the low nibble come from the mask. -/
theorem serialFieldAssembly : Obligations.SerialFieldAssembly := by
  intro s d4 d5 d6 d7
  refine ⟨xser d4 d5 d6 d7, exec_xser s d4 d5 d6 d7, xser_getLsbD d4 d5 d6 d7, fun k hk => ?last,
    xser_toNat_lt d4 d5 d6 d7, fun d7' h => ?masked⟩
  case last => rw [xser_getLsbD_last _ _ _ _ k (by omega), decide_eq_true hk, Bool.true_and]
  case masked => rw [exec_xser, xser_eq_of_high_nibble_eq d4 d5 d6 h]

/-- Settles O36: the value is `xbtn d7`. -/
theorem buttonNibbleIsTakenUnreversed : Obligations.ButtonNibbleIsTakenUnreversed :=
  fun _ d7 => ⟨xbtn d7, rfl, xbtn_toNat d7⟩

/-- Settles O37: each flag is the comparison of its operand, and BATOK is the negation. -/
theorem flagOperationsFormTheirFlags : Obligations.FlagOperationsFormTheirFlags := by
  intro s
  refine ⟨fun n => ?learn, fun d8 => ?battery, fun d8 => ?repeated, fun _ => rfl⟩
  case learn => rw [exec_xlearn, xlearn_eq_decide]
  case battery => rw [exec_xbatt, xbatt_eq_decide]
  case repeated => rw [exec_xrpt, xrpt_eq_decide]

/-! ### The texts, digit by digit -/

/-- HEXDIG is the table of 45_record_builder.md R180. -/
theorem hexdig_eq_hexCode : ∀ n : Nibble, hexdig n = hexCode n.toNat := by decide

theorem hexCode_mod (n : Nat) : hexCode (n % 16) = hexCode n := by
  simp [hexCode]

/-- Digit `d` of a value, counted from the least, has the weight `16 ^ d`. -/
theorem hexdig_extractLsb' {w : Nat} (v : BitVec w) (d : Nat) :
    hexdig (v.extractLsb' (4 * d) 4) = hexCode (v.toNat / 16 ^ d) := by
  rw [hexdig_eq_hexCode, BitVec.extractLsb'_toNat, Nat.shiftRight_eq_div_pow, Nat.pow_mul]
  exact hexCode_mod _

theorem fmtid_getElem_eq_hexCode (serial : BitVec 32) (i : Fin 7) :
    (fmtid serial)[i] = hexCode (serial.toNat / 16 ^ (6 - i.val)) := by
  rw [← hexdig_extractLsb', ← fmtid_getElem serial (6 - i.val) (by omega), Fin.getElem_fin]
  congr 1; omega

theorem fmtenc_getElem_eq_hexCode (encrypted : BitVec 32) (i : Fin 8) :
    (fmtenc encrypted)[i] = hexCode (encrypted.toNat / 16 ^ (7 - i.val)) := by
  rw [← hexdig_extractLsb', ← fmtenc_getElem encrypted (7 - i.val) (by omega), Fin.getElem_fin]
  congr 1; omega

/-! ### An accepted frame -/

/-- BTNPERM on the low nibble of byte 7 (44_button_normalizer.md R170). -/
theorem btnperm_xbtn_getLsbD (d7 : Byte) :
    (btnperm (xbtn d7)).getLsbD 3 = d7.getLsbD 3 ∧ (btnperm (xbtn d7)).getLsbD 2 = d7.getLsbD 0 ∧
      (btnperm (xbtn d7)).getLsbD 1 = d7.getLsbD 1 ∧ (btnperm (xbtn d7)).getLsbD 0 = d7.getLsbD 2 := by
  obtain ⟨h3, h2, h1, h0⟩ := btnperm_getLsbD (xbtn d7)
  exact ⟨h3.trans (xbtn_getLsbD d7 3 (by decide)), h2.trans (xbtn_getLsbD d7 0 (by decide)),
    h1.trans (xbtn_getLsbD d7 1 (by decide)), h0.trans (xbtn_getLsbD d7 2 (by decide))⟩

/-- Settles O20: the taps and the record are those of the DecodedFrame, each field of which is that of its operation. -/
theorem acceptedFrameFollowsItsByteLanes : Obligations.AcceptedFrameFollowsItsByteLanes := by
  intro s d0 d1 d2 d3 d4 d5 d6 d7 d8
  obtain ⟨hbutton3, hbutton2, hbutton1, hbutton0⟩ := btnperm_xbtn_getLsbD d7
  have hlearn : xlearn (xbtn d7) = decide (d7.toNat % 16 = 15) := by rw [xlearn_eq_decide, xbtn_toNat]
  exact ⟨_, _, exec_decodeOk d0 d1 d2 d3 d4 d5 d6 d7 d8 s, xenc_getLsbD d0 d1 d2 d3, xser_getLsbD d4 d5 d6 d7,
    xser_getLsbD_last d4 d5 d6 d7, xbtn_toNat d7, xbatt_eq_decide d8, rfl, xrpt_eq_decide d8, hlearn,
    hbutton3, hbutton2, hbutton1, hbutton0, fmtid_getElem_eq_hexCode _, fmtenc_getElem_eq_hexCode _⟩

/-- Settles O28: `learn` tests the raw nibble, and the permutation gives 15 for that nibble only. -/
theorem learnExactlyWhenButtonIsFifteen : Obligations.LearnExactlyWhenButtonIsFifteen := by
  intro s p rest h hshape hpre hnoise
  have hlearn : (dataFields p).learn = true ↔ (xbtn (p.byte1 7)).toNat = 15 := by
    change xlearn (xbtn (p.byte1 7)) = true ↔ _
    rw [xlearn_eq_decide, decide_eq_true_iff]
  refine ⟨(dataFields p).record, shownTaps (dataFields p), ?step, hlearn.trans ?button, hlearn.trans ?raw,
    hlearn.trans ?lowNibble⟩
  case step => rw [step_of_presented h, pipeline_of_not_noiseRow hshape hpre hnoise]
  case button => exact (btnperm_toNat_eq_fifteen_iff _).symm
  case raw => exact BitVec.toNat_inj (y := 0xF#4)
  case lowNibble => rw [xbtn_toNat]

end Sys2Proof.Proofs.FieldExtractor
end

section
/-! PROOFS. 44_button_normalizer.md: BTNPERM invoked alone (R170) and its properties (R171). -/

namespace Sys2Proof.Proofs.ButtonNormalizer

open Sys2Proof.Machine Sys2Proof.Proofs.Encoding Sys2Proof.Proofs.FieldExtractor

theorem exec_btnperm (n : Nibble) (s : State) : exec (.btnperm n) s =
    .next { s with wires := { s.wires with buttonIndex := some (btnperm n) } } := rfl

/-- Exchanging bits 2 and 0 twice puts each bit back. -/
theorem btnperm_involutive : Function.Involutive btnperm := by
  intro n
  obtain ⟨h3, h2, h1, h0⟩ := btnperm_getLsbD n
  obtain ⟨hh3, hh2, hh1, hh0⟩ := btnperm_getLsbD (btnperm n)
  refine BitVec.eq_of_getLsbD_eq fun i hi => ?_
  interval_cases i
  · exact hh0.trans h2
  · exact hh1.trans h1
  · exact hh2.trans h0
  · exact hh3.trans h3

/-- The learn code is fixed, and no other nibble reaches it. -/
theorem btnperm_eq_fifteen_iff (n : Nibble) : btnperm n = 0xF#4 ↔ n = 0xF#4 := by
  rw [← BitVec.toNat_inj, ← BitVec.toNat_inj]
  exact btnperm_toNat_eq_fifteen_iff n

/-- Settles O38: the value is `btnperm n`; the count of 1-bits is the same sum with two terms exchanged. -/
theorem buttonPermutationSwapsBitsTwoAndZero : Obligations.ButtonPermutationSwapsBitsTwoAndZero := by
  intro s n
  obtain ⟨h3, h2, h1, h0⟩ := btnperm_getLsbD n
  refine ⟨btnperm n, exec_btnperm n s, h3, h2, h1, h0, ?undone, ?count, btnperm_eq_fifteen_iff n⟩
  case undone => rw [exec_btnperm, btnperm_involutive n]
  case count => rw [h3, h2, h1, h0]; omega

end Sys2Proof.Proofs.ButtonNormalizer
end

section
/-! PROOFS. 45_record_builder.md: the texts of the records stay hexadecimal over every step (R180 to R182), HEXDIG, FMTID
and FMTENC invoked alone, and the record handed over by EMIT and by a presented frame (R186). -/

namespace Sys2Proof.Proofs.RecordBuilder

open Sys2Proof.Machine Sys2Proof.Claims Sys2Proof.Proofs.Ports Sys2Proof.Proofs.Memory Sys2Proof.Proofs.Encoding
  Sys2Proof.Proofs.DecodePipeline Sys2Proof.Proofs.FieldExtractor

/-! ### The record an instruction brings -/

/-- The record that comes into being or is handed over by an instruction: DECODE of an accepted frame builds one, MKREC
and EMIT have theirs as operand (45_record_builder.md R184, R186). -/
def broughtRecord : Instr → Option Record
  | .decodeOk d0 d1 d2 d3 d4 d5 d6 d7 d8 => some (decodedFrame d0 d1 d2 d3 d4 d5 d6 d7 d8).record
  | .mkrec idText bok btn lrn rpt encText => some (mkrec idText bok btn lrn rpt encText)
  | .emit rec => some rec
  | _ => none

/-- Where the records of the state after an instruction come from: its response has the one it brings, if any, and the
one being built is that or the one before. -/
inductive RecordEffect (i : Instr) (s : State) : State → Prop
  | responds {r : Response} (h : r.record = broughtRecord i) : RecordEffect i s (respond r s)
  | writes {w : Wires} (h : w.record = s.wires.record ∨ w.record = broughtRecord i) :
      RecordEffect i s { s with wires := w }

/-- Every instruction goes on, and no record appears but the one it brings. -/
theorem exec_recordEffect (i : Instr) (s : State) : ∃ t, exec i s = .next t ∧ RecordEffect i s t := by
  cases i with
  | decodeLengthMismatch | decodePreambleMismatch | decodeSanityFail => exact ⟨_, rfl, .responds rfl⟩
  | decodeOk => exact ⟨_, exec_decodeOk .., .responds rfl⟩
  | lenchk nrows len0 len1 =>
    cases htest : lenchk nrows len0 len1 with
    | true => exact ⟨_, exec_lenchk_of_true s htest, .writes (.inl rfl)⟩
    | false => exact ⟨_, exec_lenchk_of_false s htest, .responds rfl⟩
  | prechk h0 h1 =>
    cases htest : prechk h0 h1 with
    | true => exact ⟨_, exec_prechk_of_true s htest, .writes (.inl rfl)⟩
    | false => exact ⟨_, exec_prechk_of_false s htest, .responds rfl⟩
  | sanchk d1 d2 d3 d4 d5 d6 d7 =>
    cases htest : sanchk d1 d2 d3 d4 d5 d6 d7 with
    | true => exact ⟨_, exec_sanchk_of_true s htest, .responds rfl⟩
    | false => exact ⟨_, exec_sanchk_of_false s htest, .writes (.inl rfl)⟩
  | mkrec => exact ⟨_, rfl, .writes (.inr rfl)⟩
  | emit rec => exact ⟨_, exec_emit rec s, .responds rfl⟩
  | rev8 | xenc | xser | xbtn | xlearn | xbatt | xrpt | btnperm | hexdig | fmtid | fmtenc | batok | diag =>
    exact ⟨_, rfl, .writes (.inl rfl)⟩

/-- DECODE brings a record for an accepted frame only, and its texts are FMTID's and FMTENC's. -/
theorem broughtRecord_decodeFrame_isHex (p : Presentation) :
    (broughtRecord (decodeFrame p)).all (·.isHex) = true := by
  unfold decodeFrame
  cases classify p with
  | ok => exact decodedFrame_record_isHex _
  | lengthMismatch | preambleMismatch | sanityFail => rfl

/-- An invocation on hexadecimal texts brings hexadecimal texts (log 2). -/
theorem broughtRecord_decode_isHex {inv : Invocation} (h : (Stimulus.unit inv).textsHex = true) :
    (broughtRecord (decode inv)).all (·.isHex) = true := by
  cases inv with
  | frame op p =>
    cases op with
    | decode => exact broughtRecord_decodeFrame_isHex p
    | lenchk | prechk | sanchk | xenc | xser | xbtn | xbatt | xrpt => rfl
  | value op w => cases op <;> rfl
  | record op r => cases op <;> exact h

/-! ### The texts stay hexadecimal -/

section
variable {s : State} (hs : s.TextsHex)
include hs

theorem consume_textsHex : (consume s).TextsHex := by
  obtain ⟨hinputs, hlog, hrecord⟩ := hs
  exact ⟨fun st hst => hinputs st (List.mem_of_mem_tail hst), hlog, hrecord⟩

theorem setWires_textsHex {w : Wires} (hw : w.record.all (·.isHex) = true) :
    State.TextsHex { s with wires := w } := by
  obtain ⟨hinputs, hlog, -⟩ := hs
  exact ⟨hinputs, hlog, hw⟩

theorem respond_textsHex {r : Response} (hr : r.record.all (·.isHex) = true) : (respond r s).TextsHex := by
  obtain ⟨hinputs, hlog, -⟩ := hs
  refine ⟨hinputs, ?log, rfl⟩
  case log =>
    simp only [respond_log, List.mem_append, List.mem_singleton]
    rintro r' (hold | rfl)
    · exact hlog r' hold
    · exact hr

theorem quiet_textsHex : (quiet s).TextsHex := setWires_textsHex (consume_textsHex hs) rfl

/-- Every record after an instruction is one of before or the one it brings. -/
theorem recordEffect_textsHex {i : Instr} {t : State} (hi : (broughtRecord i).all (·.isHex) = true)
    (h : RecordEffect i s t) : t.TextsHex := by
  cases h with
  | responds hr => exact respond_textsHex hs (hr ▸ hi)
  | writes hw =>
    have ⟨_, _, hrecord⟩ := hs
    obtain hkept | hbrought := hw
    · exact setWires_textsHex hs (hkept ▸ hrecord)
    · exact setWires_textsHex hs (hbrought ▸ hi)

theorem exec_textsHex {i : Instr} {t : State} (hi : (broughtRecord i).all (·.isHex) = true)
    (h : exec i s = .next t) : t.TextsHex := by
  obtain ⟨t', hexec, heffect⟩ := exec_recordEffect i s
  rw [h] at hexec
  cases hexec
  exact recordEffect_textsHex hs hi heffect

end

/-- Settles O46, by cases on the next event: none is silence, one at the ports logs at most a record that DECODE built, and
an operation invoked alone brings no texts but those of its own operand. -/
theorem stepKeepsTheTextsHexadecimal : Obligations.StepKeepsTheTextsHexadecimal := by
  intro s t hs hstep
  cases hin : s.inputs with
  | nil =>
    rw [step_of_none (nextInvocation_of_nil hin)] at hstep
    cases hstep
    exact quiet_textsHex hs
  | cons st rest =>
    cases st with
    | ports e =>
      rw [step_of_ports hin] at hstep
      cases hstep
      exact afterPorts_textsHex hs hin
    | unit inv =>
      have hinvocation : nextInvocation s = some inv := nextInvocation_of_cons hin
      rw [step_of_some hinvocation] at hstep
      have ⟨hinputs, _, _⟩ := hs
      have hhex : (Stimulus.unit inv).textsHex = true := hinputs _ (by simp [hin])
      exact exec_textsHex (consume_textsHex hs) (broughtRecord_decode_isHex hhex) hstep

/-! ### HEXDIG and the two texts invoked alone -/

section
variable (s : State)

theorem exec_hexdig (n : Nibble) : exec (.hexdig n) s =
    .next { s with wires := { s.wires with hexdig := some (hexdig n) } } := rfl

theorem exec_fmtid (serial : BitVec 32) : exec (.fmtid serial) s =
    .next { s with wires := { s.wires with idText := some (fmtid serial) } } := rfl

theorem exec_fmtenc (encrypted : BitVec 32) : exec (.fmtenc encrypted) s =
    .next { s with wires := { s.wires with encText := some (fmtenc encrypted) } } := rfl

end

/-- Settles O39: the value is `hexdig n`, the table's code. -/
theorem hexDigitGivesItsCharacterCode : Obligations.HexDigitGivesItsCharacterCode := by
  intro s n
  rw [exec_hexdig, hexdig_eq_hexCode]

/-- Settles O40: the text is `fmtid serial`, digit by digit. -/
theorem idTextHasSevenDigits : Obligations.IdTextHasSevenDigits :=
  fun s serial => ⟨fmtid serial, exec_fmtid s serial, fmtid_getElem_eq_hexCode serial⟩

/-- Settles O41: the text is `fmtenc v`, digit by digit. -/
theorem encryptedTextHasEightDigits : Obligations.EncryptedTextHasEightDigits :=
  fun s v => ⟨fmtenc v, exec_fmtenc s v, fmtenc_getElem_eq_hexCode v⟩

/-! ### Handing the record over -/

/-- A response adds its record, if it has one, to those handed over, and no other. -/
theorem responded_records (s : State) (r : Response) :
    (responded s r).records = s.records ++ r.record.toList := by
  rw [responded, State.records, List.filterMap_append, State.records]
  cases hrecord : r.record <;> simp [hrecord]

theorem answered_records (s : State) (rest : List Stimulus) (r : Response) :
    (answered s rest r).records = s.records ++ r.record.toList :=
  responded_records { s with inputs := rest } r

/-- Each of the three early exits of 40_decode_pipeline.md R110 leaves without a record. -/
theorem pipeline_record_eq_none {p : Presentation} (h : ¬ (shapeRight p ∧ preambleRight p ∧ ¬ noiseRow p)) :
    (pipeline p).record = none := by
  by_cases hshape : shapeRight p
  · by_cases hpre : preambleRight p
    · have hnoise : noiseRow p := by_contra fun hdata => h ⟨hshape, hpre, hdata⟩
      rw [pipeline_of_noiseRow hshape hpre hnoise]; rfl
    · rw [pipeline_of_not_preambleRight hshape hpre]; rfl
  · rw [pipeline_of_not_shapeRight hshape]; rfl

/-- Settles O43: EMIT gives one response with its record, a presented frame the `pipeline`, whose record is that of an
accepted frame's fields or none; the log grows by the response. -/
theorem emitHandsTheRecordOverOnce : Obligations.EmitHandsTheRecordOverOnce := by
  intro s
  constructor
  · intro rec
    refine ⟨_, exec_emit rec s, rfl, rfl, rfl, fun any => ?recValid, responded_records s _⟩
    case recValid =>
      obtain ⟨-, -, hrecValid, -⟩ := drive_some any
        { status := .ok, record := some rec, taps := s.wires.taps, diag := none }
      exact hrecValid
  · intro p rest hin
    refine ⟨_, step_of_presented hin, ?accepted, fun hrejected => ?rejected⟩
    case accepted =>
      rintro ⟨hshape, hpre, hdata⟩
      exact ⟨(dataFields p).record, by rw [answered_records, pipeline_of_not_noiseRow hshape hpre hdata]; rfl⟩
    case rejected => rw [answered_records, pipeline_record_eq_none hrejected, Option.toList_none, List.append_nil]

end Sys2Proof.Proofs.RecordBuilder
end

section
/-! PROOFS. 60_exceptions.md: the three rejecting classes answer by the one raise (R202, R203), and the diagnostic request
of DIAG and of a raise is gated in the same way (R209). -/

namespace Sys2Proof.Proofs.Exceptions

open Sys2Proof.Machine Sys2Proof.Proofs.Ports Sys2Proof.Proofs.FrameShapeValidator

/-- Settles O19: each rejecting class raises its classification, and `diagRequest` gives the request for it. -/
theorem rejectionGivesOnlyItsClassification : Obligations.RejectionGivesOnlyItsClassification := by
  intro s
  refine ⟨fun nrows len0 len1 => ?lengthMismatch, fun h0 h1 => ?preambleMismatch, fun d0 d8 => ?sanityFail⟩
  case lengthMismatch =>
    rw [exec_decodeLengthMismatch, raise_eq_responded_rejection, diagRequest_lengthMismatch]
  case preambleMismatch =>
    rw [exec_decodePreambleMismatch, raise_eq_responded_rejection, diagRequest_preambleMismatch]
  case sanityFail =>
    rw [exec_decodeSanityFail, raise_eq_responded_rejection, diagRequest_sanityFail]

theorem exec_diag (c : Classification) (s : State) : exec (.diag c) s =
    .next { s with wires := { s.wires with diag := diagRequest c } } := rfl

/-- Settles O45: DIAG forms `diagRequest` of its operand and writes nothing else. -/
theorem diagnosticRequestIsGated : Obligations.DiagnosticRequestIsGated := by
  intro s
  refine ⟨?ok, ?lengthMismatch, ?requested⟩
  case ok => rw [exec_diag, diagRequest_ok]
  case lengthMismatch => rw [exec_diag, diagRequest_lengthMismatch]
  case requested =>
    rintro c (rfl | rfl)
    · rw [exec_diag, diagRequest_preambleMismatch]
    · rw [exec_diag, diagRequest_sanityFail]

end Sys2Proof.Proofs.Exceptions
end

section
/-! PROOFS. 70_reset_and_hazards.md: a reset discards the presentation that comes with it and nothing else (R230). -/

namespace Sys2Proof.Proofs.Reset

open Sys2Proof.Machine Sys2Proof.Claims Sys2Proof.Proofs.Ports

/-- An answered presentation leaves nothing of the state before it but the log: neither its transient values nor its
response. -/
theorem answered_eq_of_log_eq {s t : State} (h : t.log = s.log) (rest : List Stimulus) (r : Response) :
    answered t rest r = answered s rest r := by
  rw [answered, answered, h]

/-- Settles O4: the step under `rst` is silent, so it changes no log, and the log is all that the next answer keeps of the
state before it. -/
theorem resetDiscardsOnlyItsOwnPresentation : Obligations.ResetDiscardsOnlyItsOwnPresentation := by
  intro s e p rest hin hrst
  obtain ⟨t, hreset, ht, hports⟩ := noPresentationGivesNoResponse s (.inr ⟨e, _, hin, .inl hrst⟩)
  have hinputs : t.inputs = .ports (present p) :: rest := by rw [ht, hin, List.tail_cons]
  have hresponse : t.response = none := by rw [ht]
  have hlog : t.log = s.log := by rw [ht]
  have hnext : step t = .next (answered s rest (pipeline p)) := by
    rw [step_of_presented hinputs, answered_eq_of_log_eq hlog]
  exact ⟨t, hreset, hresponse, hlog, hports, hnext, step_of_presented rfl⟩

end Sys2Proof.Proofs.Reset
end
